-- ==== Sys2Proof/Word.lean ====
section
/-! DEFINITION. The widths of RLF: wire symbols of 8 bits, wire fields of 16 bits and host registers of 32 bits (00_scope.md R9). -/

namespace Sys2Proof

/-- A wire symbol, an opcode, a checksum or an antenna id (R9). -/
abbrev Byte := BitVec 8

/-- A LENGTH, PC, power or RSSI field (R9). -/
abbrev Half := BitVec 16

/-- A host register (R9). -/
abbrev Word := BitVec 32

end Sys2Proof
end

