-- ==== Sys2Proof/Machine/Operands.lean ====
section
/-! DEFINITION. Operand forms: byte sequences, byte order, the checksum, the frame, the PC word of a tag record, the PARAMS
layouts of the commands and the exact meaning of power and RSSI values (00_scope.md R12 to R15, 30_encoding.md, 44_commands.md). -/

namespace Sys2Proof.Machine

/-! ### Byte sequences and byte order -/

/-- `s[i]` of 00_scope.md R13. It is defined for `i < |s|` only, and every rule reads it there; past the end this function
gives 0 (log 26). -/
def byteAt (s : List Byte) (i : Nat) : Byte := s.getD i 0x00#8

/-- `s[a..b-1]` of 00_scope.md R13: the bytes from index `a` up to but not including index `b`. -/
def slice (s : List Byte) (a b : Nat) : List Byte := (s.drop a).take (b - a)

/-- `be16(h, l)` (00_scope.md R13): the more significant byte first. -/
def be16 (h l : Byte) : Half := h ++ l

/-- `v[15:8]`, the byte of a 16-bit field that goes first on the wire (20_memory.md R103). -/
def hi8 (v : Half) : Byte := v.extractLsb' 8 8

/-- `v[7:0]`, the byte of a 16-bit field that goes second on the wire (20_memory.md R103). -/
def lo8 (v : Half) : Byte := v.extractLsb' 0 8

/-- `s16(v)` (00_scope.md R14): two's complement. -/
def s16 (v : Half) : Int := v.toInt

/-- `xor8(s)` (00_scope.md R15). -/
def xor8 (s : List Byte) : Byte := s.foldl (fun acc b => acc ^^^ b) 0x00#8

/-- The checksum generator (41_tx_framer.md R224). -/
def checksum (s : List Byte) : Byte := xor8 s

/-! ### The frame (30_encoding.md R130) -/

/-- First SOF byte. -/
def sof0 : Byte := 0xA5#8
/-- Second SOF byte. -/
def sof1 : Byte := 0x5A#8
/-- First EOF byte. -/
def eof0 : Byte := 0x0D#8
/-- Second EOF byte. -/
def eof1 : Byte := 0x0A#8

/-- Bytes of a frame that are not PARAMS (30_encoding.md R132). -/
def frameOverhead : Nat := 8

/-- The longest PARAMS a 16-bit LENGTH can count (30_encoding.md R132). -/
def maxParams : Nat := 65527

/-- The LENGTH field of a frame with PARAMS `p` (30_encoding.md R132). -/
def lengthField (p : List Byte) : Half := BitVec.ofNat 16 (p.length + frameOverhead)

/-- The bytes a frame's CHECKSUM covers: LENGTH, OPCODE and PARAMS (30_encoding.md R133). -/
def checkedBytes (op : Byte) (p : List Byte) : List Byte :=
  hi8 (lengthField p) :: lo8 (lengthField p) :: op :: p

/-- `encode(op, p)` (41_tx_framer.md R225), the frame of 30_encoding.md R130. -/
def frameEncode (op : Byte) (p : List Byte) : List Byte :=
  sof0 :: sof1 :: checkedBytes op p ++ [checksum (checkedBytes op p), eof0, eof1]

/-- The ack opcode of a request opcode, modulo 256 (30_encoding.md R134). -/
def ackOpcode (op : Byte) : Byte := op + 1#8

/-! ### Request opcodes (30_encoding.md R142) -/

def opSetPower : Byte := 0x10#8
def opGetPower : Byte := 0x12#8
def opSetAntenna : Byte := 0x28#8
def opGetAntenna : Byte := 0x2A#8
def opSetRfMode : Byte := 0x52#8
def opGetRfMode : Byte := 0x54#8
def opSetDwell : Byte := 0x3C#8
def opGetDwell : Byte := 0x3E#8
def opInventoryStart : Byte := 0x82#8
def opInventoryStop : Byte := 0x8C#8

/-- The ten documented request opcodes (44_commands.md R350). -/
def documentedRequests : List Byte :=
  [opSetPower, opGetPower, opSetAntenna, opGetAntenna, opSetRfMode, opGetRfMode, opSetDwell, opGetDwell,
   opInventoryStart, opInventoryStop]

/-! ### PARAMS layouts (30_encoding.md R140, 44_commands.md) -/

/-- NVM-flag(2) power(2) power(2) (44_commands.md R351). -/
def setPowerParams (nvm power1 power2 : Half) : List Byte :=
  [hi8 nvm, lo8 nvm, hi8 power1, lo8 power1, hi8 power2, lo8 power2]

/-- reserved(2) bitmask(1) (44_commands.md R353). -/
def setAntennaParams (rsv : Half) (mask : Byte) : List Byte := [hi8 rsv, lo8 rsv, mask]

/-- NVM-flag(2) mode(1) (44_commands.md R355). -/
def setRfModeParams (nvm : Half) (mode : Byte) : List Byte := [hi8 nvm, lo8 nvm, mode]

/-- reserved(2) (44_commands.md R356). -/
def getRfModeParams (rsv : Half) : List Byte := [hi8 rsv, lo8 rsv]

/-- NVM-flag(1) work(2) wait(2) (44_commands.md R357). -/
def setDwellParams (nvm : Byte) (work wait : Half) : List Byte :=
  [nvm, hi8 work, lo8 work, hi8 wait, lo8 wait]

/-- cycles(2), 0 = continuous (44_commands.md R359). -/
def inventoryStartParams (cycles : Half) : List Byte := [hi8 cycles, lo8 cycles]

/-- `antenna_mask(a1, a2, a3, a4)` (30_encoding.md R141). -/
def antennaMask (a1 a2 a3 a4 : Bool) : Byte :=
  0#4 ++ BitVec.ofBool a4 ++ BitVec.ofBool a3 ++ BitVec.ofBool a2 ++ BitVec.ofBool a1

/-! ### Values (44_commands.md R364 to R368)

Powers are taken in exact hundredths of a dBm, as R366 reads them; no rounding tie arises (log 24). -/

/-- `dbm_to_raw` of a power given in hundredths of a dBm (44_commands.md R364, R366). -/
def dbmToRaw (hundredths : Int) : Half := BitVec.ofInt 16 hundredths

/-- `raw_to_dbm` of a 16-bit field, in hundredths of a dBm (44_commands.md R365, R366). -/
def rawToHundredths (v : Half) : Int := s16 v

/-- `raw_to_dbm` of two wire bytes, in dBm (44_commands.md R365); also the power-report scale (R367). -/
def rawToDbm (h l : Byte) : ℚ := (s16 (be16 h l) : ℚ) / 100

/-- The RSSI of a record in dBm (44_commands.md R368). -/
def rssiDbm (rssiRaw : Half) : ℚ := (s16 rssiRaw : ℚ) / 10

/-! ### The tag record (30_encoding.md R136 to R139) -/

/-- EPC_LEN of a PC word: `((PC >> 11) AND 0x1F) * 2` (30_encoding.md R137). -/
def epcLength (pc : Half) : Nat := ((pc >>> 11) &&& 0x001F#16).toNat * 2

/-- Bytes from a record's SOF to its antenna byte: what is needed to emit it (30_encoding.md R138). -/
def recordNeed (e : Nat) : Nat := 10 + e

/-- Bytes from a record's SOF to the end of its trailer (30_encoding.md R138). -/
def recordSpan (e : Nat) : Nat := 13 + e

/-- The PARAMS of a tag frame (30_encoding.md R136). -/
def tagFrameParams (pc : Half) (epc : List Byte) (rssi : Half) (ant : Byte) : List Byte :=
  hi8 pc :: lo8 pc :: epc ++ [hi8 rssi, lo8 rssi, ant]

/-! ### Register offsets (10_state.md R33) -/

/-- The register an offset reaches: bits 1:0 are not decoded (20_memory.md R105). -/
def registerOffset (off : Byte) : Byte := off &&& 0xFC#8

/-- The offset in RLF's window of a host address, where RLF_BASE places the window (20_memory.md R101). -/
def windowOffset (base addr : Nat) : Option Byte :=
  if base ≤ addr ∧ addr - base ≤ 0xFF then some (BitVec.ofNat 8 (addr - base)) else none

/-- Offset of TAG_EPCk: `0x50 + 4k` (10_state.md R33, R51). -/
def tagEpcOffset (k : BitVec 4) : Byte := 0x50#8 + (k.setWidth 8 <<< 2)

/-- A host address, its bytes most significant first (log 22). -/
def addressOf (addr : List Byte) : Nat := addr.foldl (fun acc b => 256 * acc + b.toNat) 0

/-- The register offsets a write changes nothing at: the read-only registers and the unmapped offsets (40_host_access.md R187). -/
def writeHasNoEffect (o : Byte) : Bool := o == 0x18#8 || (0x20#8).ule o

/-- The register offsets a read returns 0 from: CMD, TX_DATA and the unmapped offsets (40_host_access.md R180, 10_state.md R55). -/
def readIsZero (o : Byte) : Bool := o == 0x0C#8 || o == 0x14#8 || (0x90#8).ule o

/-! ### The bits of CMD (10_state.md R43) -/

def cmdTxSend : Word := 0x00000001#32
def cmdTxClr : Word := 0x00000002#32
def cmdRxPop : Word := 0x00000004#32
def cmdRxFlush : Word := 0x00000008#32
def cmdTagPop : Word := 0x00000010#32
def cmdTagEnd : Word := 0x00000020#32
def cmdTagFlush : Word := 0x00000040#32
def cmdCntClr : Word := 0x00000080#32
def cmdBlkReset : Word := 0x80000000#32

/-- A CMD word that is exactly one command bit and nothing else (log 16). -/
def isLoneCommand (v : Word) : Bool :=
  [cmdTxSend, cmdTxClr, cmdRxPop, cmdRxFlush, cmdTagPop, cmdTagEnd, cmdTagFlush, cmdCntClr, cmdBlkReset].contains v

/-- PARAMS whose frame a 16-bit LENGTH can count (30_encoding.md R132). -/
def paramsFit (p : List Byte) : Bool := decide (p.length ≤ maxParams)

end Sys2Proof.Machine
end

