-- ==== Sys2Proof/Syntax.lean ====
section
/-! DEFINITION. The instructions of RLF: one constructor per row of spec/opcode_table.json, in the table's order, and the
reasons the decoder rejects an entry of the schedule. -/

namespace Sys2Proof

/-- One step of one agent (00_scope.md R10), as the opcode table names it. Operands are already taken apart: register
offsets and opcodes are constructors, wire fields are numbers. -/
inductive Instr where
  -- request frames the host composes (44_commands.md R351 to R361)
  | setPower (nvm power1 power2 : Half)
  | getPower
  | setAntenna (rsv : Half) (mask : Byte)
  | getAntenna
  | setRfMode (nvm : Half) (mode : Byte)
  | getRfMode (rsv : Half)
  | setDwell (nvm : Byte) (work wait : Half)
  | getDwell
  | inventoryStart (cycles : Half)
  | inventoryStop
  | softwareReset
  -- response frames the reader sends, PARAMS uninterpreted (44_commands.md R362)
  | setPowerAck (params : List Byte)
  | getPowerAck (params : List Byte)
  | setAntennaAck (params : List Byte)
  | getAntennaAck (params : List Byte)
  | setRfModeAck (params : List Byte)
  | getRfModeAck (params : List Byte)
  | setDwellAck (params : List Byte)
  | getDwellAck (params : List Byte)
  | inventoryStartAck (params : List Byte)
  | inventoryStopAck (params : List Byte)
  | softwareResetAck (params : List Byte)
  -- the record the tag engine emits (43_tag_parser.md R305)
  | tagRecord (pc : Half) (epc : List Byte) (rssi : Half) (ant : Byte)
  -- the commands of the CMD register (10_state.md R43)
  | txSend
  | txClr
  | rxPop
  | rxFlush
  | tagPop
  | tagEnd
  | tagFlush
  | cntClr
  | blkReset
  -- host writes (40_host_access.md R181)
  | ctrlWrite (v : Word)
  | statusW1c (v : Word)
  | ieWrite (v : Word)
  | cmdWrite (v : Word)
  | txOpcodeWrite (v : Word)
  | txDataWrite (v : Word)
  | expOpcodeWrite (v : Word)
  | roOrUnmappedWrite (off : Byte) (v : Word)
  -- host reads (40_host_access.md R180)
  | ctrlRead
  | statusRead
  | ieRead
  | txOpcodeRead
  | txPlenRead
  | expOpcodeRead
  | rxHdrRead
  | rxInfoRead
  | rxRidxRead
  | tagHdrRead
  | tagRssiRead
  | levelsRead
  | cntRxdropRead
  | cntFramesRead
  | cntTagsRead
  | cfg0Read
  | cfg1Read
  | tagEpcRead (k : BitVec 4)
  | rxDataRead
  | unmappedOrWoRead (off : Byte)
  -- environment and engine steps
  | rxByte (b : Byte)
  | tagFeed (b : Byte)
  | rxLineError
  | txAccept
  | delinStep
  | tagStep
  | hardReset
  deriving DecidableEq, Repr, Inhabited

/-- Why an entry of the schedule is the encoding of no instruction. -/
inductive DecodeError where
  /-- The entry holds no byte, so no kind of step. -/
  | emptyEntry
  /-- The first byte names no kind of step. -/
  | unknownKind
  /-- The payload is shorter or longer than its kind of step takes. -/
  | badEntryLength
  /-- A host access narrower than 32 bits (20_memory.md R105). -/
  | narrowAccess
  /-- A host access of a size that is neither narrower than nor equal to 32 bits (20_memory.md R105). -/
  | badAccessSize
  /-- The frame or the tag record does not start with A5 5A (30_encoding.md R130, R136). -/
  | badSof
  /-- LENGTH is not the number of bytes of the frame (30_encoding.md R132). -/
  | badLength
  /-- CHECKSUM is not the XOR of LENGTH, OPCODE and PARAMS (30_encoding.md R133). -/
  | badChecksum
  /-- The frame does not end in 0D 0A (30_encoding.md R130). -/
  | badEof
  /-- The opcode is none of 30_encoding.md R142 for this direction. -/
  | unknownOpcode
  /-- The PARAMS do not have the length their command's layout gives (30_encoding.md R142). -/
  | badParams
  deriving DecidableEq, Repr

end Sys2Proof
end

