-- ==== Sys2Proof/Config.lean ====
section
/-! DEFINITION. What is fixed for one RLF: the implementation parameters of 00_scope.md R8, and the free values the spec leaves
open (opaque constants: no proof can see their value). -/

namespace Sys2Proof

/-- The implementation parameters RLF reads (00_scope.md R8), and the platform's RLF_BASE (20_memory.md R101). A state carries them, and no step changes them (10_state.md R54). -/
structure Params where
  /-- TXP_DEPTH: capacity of TXBUF, bytes. -/
  txpDepth : Nat
  /-- RXP_DEPTH: capacity of RX_PBUF, bytes. -/
  rxpDepth : Nat
  /-- RXQ_DEPTH: capacity of RXQ, bytes. -/
  rxqDepth : Nat
  /-- TAGW_DEPTH: capacity of the tag window W, bytes. -/
  tagwDepth : Nat
  /-- TAGQ_DEPTH: capacity of TAGQ, records. -/
  tagqDepth : Nat
  /-- SW_RESET_OPCODE: wire opcode of the reader's software reset. -/
  swResetOpcode : Byte
  /-- RLF_BASE: the host address of the register window's first byte (20_memory.md R101). -/
  rlfBase : Nat
  deriving DecidableEq, Repr

/-- MAX_FRAME = RXP_DEPTH + 8 (00_scope.md R8). -/
def Params.maxFrame (c : Params) : Nat := c.rxpDepth + 8

/-- R8's constraint on SW_RESET_OPCODE: none of the ten other request opcodes and none of their acks. -/
def swResetAllowed (b : Byte) : Bool :=
  !(Machine.documentedRequests.contains b) && !((Machine.documentedRequests.map Machine.ackOpcode).contains b)

/-- The constraints of 00_scope.md R8. -/
abbrev Params.Valid (c : Params) : Prop :=
  (6 ≤ c.txpDepth ∧ c.txpDepth ≤ 65527) ∧
  (67 ≤ c.rxpDepth ∧ c.rxpDepth ≤ 65527) ∧
  (c.maxFrame ≤ c.rxqDepth ∧ c.rxqDepth ≤ 65535) ∧
  (72 ≤ c.tagwDepth ∧ c.tagwDepth ≤ 255) ∧
  (1 ≤ c.tagqDepth ∧ c.tagqDepth ≤ 255) ∧
  swResetAllowed c.swResetOpcode = true

namespace Config

/-- A free byte from which SW_RESET_OPCODE is taken (OPEN in R8, 90_conflicts.md C3; log 12). -/
opaque swResetRaw : Byte

/-- SW_RESET_OPCODE: any value R8 allows. Every allowed value is a possible value of this constant: it is the free byte where that is
allowed (log 12). -/
def swResetOpcode : Byte := if swResetAllowed swResetRaw then swResetRaw else 0x00#8

/-- RLF_BASE, where the platform places the register window (20_memory.md R101; log 22). -/
opaque rlfBase : Nat

/-- The reference depths of 00_scope.md R8, with the open SW_RESET_OPCODE and RLF_BASE (log 12, log 22). -/
def params : Params :=
  { txpDepth := 64, rxpDepth := 256, rxqDepth := 264, tagwDepth := 128, tagqDepth := 16, swResetOpcode := swResetOpcode,
    rlfBase := rlfBase }

/-- NVM_PERSIST of set dwell time, 8 bits; RLF never reads it (00_scope.md R8; log 23). -/
opaque nvmPersist8 : Byte

/-- NVM_PERSIST of set power and set RF mode, 16 bits; RLF never reads it (00_scope.md R8; log 23). -/
opaque nvmPersist16 : Half

/-- DWELL_RANGE, the valid work and wait values of set dwell time, a host-side check (00_scope.md R8; log 23). -/
opaque dwellRange : Half → Bool

/-- The step some agent takes before engine turn `n`, with `k` free steps left, where the schedule holds none: the order between agents
is not fixed (00_scope.md R10), and host and receive steps are free inputs (R11; log 2). -/
opaque nextStep (n k : Nat) : Instr

/-- How many free steps come before engine turn `n`: always finitely many, so that an engine step that stays enabled is taken
(00_scope.md R11; log 2). -/
opaque freeSteps (n : Nat) : Nat

/-- Whether the UART transmit side is ready to take a byte at that point: an environment condition (41_tx_framer.md R226, 00_scope.md
R11; log 2). -/
opaque uartReady (n k : Nat) : Bool

end Config

end Sys2Proof
end

