-- ==== Sys2Proof/WellFormed.lean ====
section
/-! DEFINITION. Which terms of Instr are instructions: the relations between an instruction's fields that its type does not hold. -/

namespace Sys2Proof

/-- A well-formed instruction: an ack's PARAMS fit a LENGTH field, a tag record's EPC has the length its PC word declares, a
CMD word that is one lone command is written as that command, and an offset is a register offset of its own row. -/
def Instr.wellFormed : Instr → Bool
  | .setPower _ _ _ => true
  | .getPower => true
  | .setAntenna _ _ => true
  | .getAntenna => true
  | .setRfMode _ _ => true
  | .getRfMode _ => true
  | .setDwell _ _ _ => true
  | .getDwell => true
  | .inventoryStart _ => true
  | .inventoryStop => true
  | .softwareReset => true
  | .setPowerAck p => Machine.paramsFit p
  | .getPowerAck p => Machine.paramsFit p
  | .setAntennaAck p => Machine.paramsFit p
  | .getAntennaAck p => Machine.paramsFit p
  | .setRfModeAck p => Machine.paramsFit p
  | .getRfModeAck p => Machine.paramsFit p
  | .setDwellAck p => Machine.paramsFit p
  | .getDwellAck p => Machine.paramsFit p
  | .inventoryStartAck p => Machine.paramsFit p
  | .inventoryStopAck p => Machine.paramsFit p
  | .softwareResetAck p => Machine.paramsFit p
  | .tagRecord pc epc _ _ => epc.length == Machine.epcLength pc
  | .txSend => true
  | .txClr => true
  | .rxPop => true
  | .rxFlush => true
  | .tagPop => true
  | .tagEnd => true
  | .tagFlush => true
  | .cntClr => true
  | .blkReset => true
  | .ctrlWrite _ => true
  | .statusW1c _ => true
  | .ieWrite _ => true
  | .cmdWrite v => !(Machine.isLoneCommand v)
  | .txOpcodeWrite _ => true
  | .txDataWrite _ => true
  | .expOpcodeWrite _ => true
  | .roOrUnmappedWrite o _ => Machine.registerOffset o == o && Machine.writeHasNoEffect o
  | .ctrlRead => true
  | .statusRead => true
  | .ieRead => true
  | .txOpcodeRead => true
  | .txPlenRead => true
  | .expOpcodeRead => true
  | .rxHdrRead => true
  | .rxInfoRead => true
  | .rxRidxRead => true
  | .tagHdrRead => true
  | .tagRssiRead => true
  | .levelsRead => true
  | .cntRxdropRead => true
  | .cntFramesRead => true
  | .cntTagsRead => true
  | .cfg0Read => true
  | .cfg1Read => true
  | .tagEpcRead _ => true
  | .rxDataRead => true
  | .unmappedOrWoRead o => Machine.registerOffset o == o && Machine.readIsZero o
  | .rxByte _ => true
  | .tagFeed _ => true
  | .rxLineError => true
  | .txAccept => true
  | .delinStep => true
  | .tagStep => true
  | .hardReset => true

end Sys2Proof
end

