-- ==== Sys2Proof/Decode.lean ====
section
/-! DEFINITION. The decoder and the encoder of schedule entries.

An entry is the encoding of one step, as bytes: one byte that names the interface (log 3), then what the spec gives as the encoding
there: a bus access `W off data` or `R off` (30_encoding.md R145), a frame (R130), a tag record (R136), a received byte, or
nothing. -/

namespace Sys2Proof

/-- The interface a schedule entry belongs to (10_state.md R30, 00_scope.md R10). -/
inductive StepKind where
  | busWrite
  | busRead
  | requestFrame
  | responseFrame
  | tagSpan
  | receivedByte
  | fedByte
  | lineError
  | transmitAccept
  | delineator
  | tagEngine
  | reset
  deriving DecidableEq, Repr

/-- The byte that names an interface in an entry (log 3). -/
def StepKind.code : StepKind → Byte
  | .busWrite => 0x57#8
  | .busRead => 0x52#8
  | .requestFrame => 0x53#8
  | .responseFrame => 0x41#8
  | .tagSpan => 0x54#8
  | .receivedByte => 0x42#8
  | .fedByte => 0x46#8
  | .lineError => 0x45#8
  | .transmitAccept => 0x58#8
  | .delineator => 0x44#8
  | .tagEngine => 0x50#8
  | .reset => 0x48#8

/-- All interfaces, for the search by code. -/
def StepKind.all : List StepKind :=
  [.busWrite, .busRead, .requestFrame, .responseFrame, .tagSpan, .receivedByte, .fedByte, .lineError, .transmitAccept,
   .delineator, .tagEngine, .reset]

/-- The interface a byte names, if any (log 3). -/
def kindOfCode (b : Byte) : Option StepKind := StepKind.all.find? (fun k => k.code == b)

open Machine

/-! ### Bus accesses -/

/-- The four data bytes of a bus write in an entry, most significant first (log 3). -/
def wordBytes (v : Word) : List Byte :=
  [v.extractLsb' 24 8, v.extractLsb' 16 8, v.extractLsb' 8 8, v.extractLsb' 0 8]

/-- The 32-bit data of four bytes, most significant first (log 3). -/
def wordOfBytes (b3 b2 b1 b0 : Byte) : Word := b3 ++ b2 ++ b1 ++ b0

/-- The size byte of a 32-bit access (20_memory.md R105). -/
def fullAccess : Byte := 0x04#8

/-- A size other than 32 bits: refused when narrower (20_memory.md R105). -/
def sizeError (size : Byte) : DecodeError := if size.ult fullAccess then .narrowAccess else .badAccessSize

/-- The command of a CMD word that is exactly one command bit (10_state.md R43; log 16). -/
def loneCommand (v : Word) : Option Instr :=
  if v = cmdTxSend then some .txSend
  else if v = cmdTxClr then some .txClr
  else if v = cmdRxPop then some .rxPop
  else if v = cmdRxFlush then some .rxFlush
  else if v = cmdTagPop then some .tagPop
  else if v = cmdTagEnd then some .tagEnd
  else if v = cmdTagFlush then some .tagFlush
  else if v = cmdCntClr then some .cntClr
  else if v = cmdBlkReset then some .blkReset
  else none

/-- `HostWrite(off, v)` (40_host_access.md R181). -/
def decodeWrite (off : Byte) (v : Word) : Instr :=
  let o := registerOffset off
  if o = 0x00#8 then .ctrlWrite v
  else if o = 0x04#8 then .statusW1c v
  else if o = 0x08#8 then .ieWrite v
  else if o = 0x0C#8 then (loneCommand v).getD (.cmdWrite v)
  else if o = 0x10#8 then .txOpcodeWrite v
  else if o = 0x14#8 then .txDataWrite v
  else if o = 0x1C#8 then .expOpcodeWrite v
  else .roOrUnmappedWrite o v

/-- `HostRead(off)` (40_host_access.md R180, 10_state.md R33). -/
def decodeRead (off : Byte) : Instr :=
  let o := registerOffset off
  if o = 0x00#8 then .ctrlRead
  else if o = 0x04#8 then .statusRead
  else if o = 0x08#8 then .ieRead
  else if o = 0x10#8 then .txOpcodeRead
  else if o = 0x18#8 then .txPlenRead
  else if o = 0x1C#8 then .expOpcodeRead
  else if o = 0x20#8 then .rxHdrRead
  else if o = 0x24#8 then .rxInfoRead
  else if o = 0x28#8 then .rxDataRead
  else if o = 0x2C#8 then .rxRidxRead
  else if o = 0x30#8 then .tagHdrRead
  else if o = 0x34#8 then .tagRssiRead
  else if o = 0x38#8 then .levelsRead
  else if o = 0x3C#8 then .cntRxdropRead
  else if o = 0x40#8 then .cntFramesRead
  else if o = 0x44#8 then .cntTagsRead
  else if o = 0x48#8 then .cfg0Read
  else if o = 0x4C#8 then .cfg1Read
  else if readIsZero o then .unmappedOrWoRead o
  else .tagEpcRead (((o - 0x50#8) >>> 2).setWidth 4)

/-- The payload of a bus write: size, offset, data (log 3). -/
def decodeBusWrite (body : List Byte) : Except DecodeError Instr :=
  match body with
  | size :: off :: data =>
    if size = fullAccess then
      match data with
      | [b3, b2, b1, b0] => .ok (decodeWrite off (wordOfBytes b3 b2 b1 b0))
      | _ => .error .badEntryLength
    else .error (sizeError size)
  | _ => .error .badEntryLength

/-- The payload of a bus read: size, offset (log 3). -/
def decodeBusRead (body : List Byte) : Except DecodeError Instr :=
  match body with
  | [size, off] => if size = fullAccess then .ok (decodeRead off) else .error (sizeError size)
  | _ => .error .badEntryLength

/-! ### Frames -/

/-- The OPCODE and the PARAMS of a byte sequence that is exactly one frame of 30_encoding.md R130, its fields read at the places of
R131. -/
def parseFrame (f : List Byte) : Except DecodeError (Byte × List Byte) :=
  if f.length < frameOverhead then .error .badEntryLength
  else if byteAt f 0 ≠ sof0 ∨ byteAt f 1 ≠ sof1 then .error .badSof
  else if (be16 (byteAt f 2) (byteAt f 3)).toNat ≠ f.length then .error .badLength
  else if byteAt f (f.length - 3) ≠ checksum (slice f 2 (f.length - 3)) then .error .badChecksum
  else if byteAt f (f.length - 2) ≠ eof0 ∨ byteAt f (f.length - 1) ≠ eof1 then .error .badEof
  else .ok (byteAt f 4, slice f 5 (f.length - 3))

/-- A request frame's command (30_encoding.md R142, the layouts of 44_commands.md R351 to R361). `sw` is SW_RESET_OPCODE. -/
def decodeRequest (sw op : Byte) (p : List Byte) : Except DecodeError Instr :=
  if op = opSetPower then
    match p with
    | [n1, n0, x1, x0, y1, y0] => .ok (.setPower (be16 n1 n0) (be16 x1 x0) (be16 y1 y0))
    | _ => .error .badParams
  else if op = opGetPower then
    match p with
    | [] => .ok .getPower
    | _ => .error .badParams
  else if op = opSetAntenna then
    match p with
    | [r1, r0, m] => .ok (.setAntenna (be16 r1 r0) m)
    | _ => .error .badParams
  else if op = opGetAntenna then
    match p with
    | [] => .ok .getAntenna
    | _ => .error .badParams
  else if op = opSetRfMode then
    match p with
    | [n1, n0, m] => .ok (.setRfMode (be16 n1 n0) m)
    | _ => .error .badParams
  else if op = opGetRfMode then
    match p with
    | [r1, r0] => .ok (.getRfMode (be16 r1 r0))
    | _ => .error .badParams
  else if op = opSetDwell then
    match p with
    | [n, w1, w0, t1, t0] => .ok (.setDwell n (be16 w1 w0) (be16 t1 t0))
    | _ => .error .badParams
  else if op = opGetDwell then
    match p with
    | [] => .ok .getDwell
    | _ => .error .badParams
  else if op = opInventoryStart then
    match p with
    | [c1, c0] => .ok (.inventoryStart (be16 c1 c0))
    | _ => .error .badParams
  else if op = opInventoryStop then
    match p with
    | [] => .ok .inventoryStop
    | _ => .error .badParams
  else if op = sw then
    match p with
    | [] => .ok .softwareReset
    | _ => .error .badParams
  else .error .unknownOpcode

/-- A response frame's command: its OPCODE is the ack opcode of a request (30_encoding.md R134, R142; 44_commands.md R362). -/
def decodeResponse (sw op : Byte) (p : List Byte) : Except DecodeError Instr :=
  if op = ackOpcode opSetPower then .ok (.setPowerAck p)
  else if op = ackOpcode opGetPower then .ok (.getPowerAck p)
  else if op = ackOpcode opSetAntenna then .ok (.setAntennaAck p)
  else if op = ackOpcode opGetAntenna then .ok (.getAntennaAck p)
  else if op = ackOpcode opSetRfMode then .ok (.setRfModeAck p)
  else if op = ackOpcode opGetRfMode then .ok (.getRfModeAck p)
  else if op = ackOpcode opSetDwell then .ok (.setDwellAck p)
  else if op = ackOpcode opGetDwell then .ok (.getDwellAck p)
  else if op = ackOpcode opInventoryStart then .ok (.inventoryStartAck p)
  else if op = ackOpcode opInventoryStop then .ok (.inventoryStopAck p)
  else if op = ackOpcode sw then .ok (.softwareResetAck p)
  else .error .unknownOpcode

/-- The payload of a request frame. -/
def decodeRequestFrame (sw : Byte) (f : List Byte) : Except DecodeError Instr :=
  match parseFrame f with
  | .ok (op, p) => decodeRequest sw op p
  | .error e => .error e

/-- The payload of a response frame. -/
def decodeResponseFrame (sw : Byte) (f : List Byte) : Except DecodeError Instr :=
  match parseFrame f with
  | .ok (op, p) => decodeResponse sw op p
  | .error e => .error e

/-- A whole tag record, from its SOF to the end of its trailer (30_encoding.md R136 to R139). Bytes 2 to 4 and the trailer are not
read (43_tag_parser.md R313). -/
def decodeTagSpan (w : List Byte) : Except DecodeError Instr :=
  if w.length < 7 then .error .badEntryLength
  else if byteAt w 0 ≠ sof0 ∨ byteAt w 1 ≠ sof1 then .error .badSof
  else
    let pc := be16 (byteAt w 5) (byteAt w 6)
    let e := epcLength pc
    if w.length ≠ recordSpan e then .error .badEntryLength
    else .ok (.tagRecord pc (slice w 7 (7 + e)) (be16 (byteAt w (7 + e)) (byteAt w (8 + e))) (byteAt w (9 + e)))

/-! ### The decoder -/

/-- The payload of a step that carries one byte. -/
def decodeOneByte (body : List Byte) (mk : Byte → Instr) : Except DecodeError Instr :=
  match body with
  | [b] => .ok (mk b)
  | _ => .error .badEntryLength

/-- The payload of a step that carries nothing. -/
def decodeNoByte (body : List Byte) (i : Instr) : Except DecodeError Instr :=
  match body with
  | [] => .ok i
  | _ => .error .badEntryLength

/-- The instruction an entry of the schedule encodes, or why it encodes none. `sw` is SW_RESET_OPCODE. -/
def decode (sw : Byte) (m : List Byte) : Except DecodeError Instr :=
  match m with
  | [] => .error .emptyEntry
  | k :: body =>
    match kindOfCode k with
    | none => .error .unknownKind
    | some .busWrite => decodeBusWrite body
    | some .busRead => decodeBusRead body
    | some .requestFrame => decodeRequestFrame sw body
    | some .responseFrame => decodeResponseFrame sw body
    | some .tagSpan => decodeTagSpan body
    | some .receivedByte => decodeOneByte body .rxByte
    | some .fedByte => decodeOneByte body .tagFeed
    | some .lineError => decodeNoByte body .rxLineError
    | some .transmitAccept => decodeNoByte body .txAccept
    | some .delineator => decodeNoByte body .delinStep
    | some .tagEngine => decodeNoByte body .tagStep
    | some .reset => decodeNoByte body .hardReset

/-! ### The encoder -/

/-- `W off v` (30_encoding.md R145) as an entry. -/
def encodeWrite (off : Byte) (v : Word) : List Byte := StepKind.busWrite.code :: fullAccess :: off :: wordBytes v

/-- `R off` (30_encoding.md R145) as an entry. -/
def encodeRead (off : Byte) : List Byte := [StepKind.busRead.code, fullAccess, off]

/-- A request frame as an entry. -/
def encodeRequest (op : Byte) (p : List Byte) : List Byte := StepKind.requestFrame.code :: frameEncode op p

/-- A response frame, with the ack opcode of the request opcode `op`, as an entry. -/
def encodeResponse (op : Byte) (p : List Byte) : List Byte :=
  StepKind.responseFrame.code :: frameEncode (ackOpcode op) p

/-- OPCODE of the tag frame the encoder writes; the parser never reads it (92_eei_decisions.md D38; log 15). -/
def tagFrameOpcode : Byte := 0x00#8

/-- The entry of a well-formed instruction. `sw` is SW_RESET_OPCODE. -/
def encode (sw : Byte) : Instr → List Byte
  | .setPower nvm power1 power2 => encodeRequest opSetPower (setPowerParams nvm power1 power2)
  | .getPower => encodeRequest opGetPower []
  | .setAntenna rsv mask => encodeRequest opSetAntenna (setAntennaParams rsv mask)
  | .getAntenna => encodeRequest opGetAntenna []
  | .setRfMode nvm mode => encodeRequest opSetRfMode (setRfModeParams nvm mode)
  | .getRfMode rsv => encodeRequest opGetRfMode (getRfModeParams rsv)
  | .setDwell nvm work wait => encodeRequest opSetDwell (setDwellParams nvm work wait)
  | .getDwell => encodeRequest opGetDwell []
  | .inventoryStart cycles => encodeRequest opInventoryStart (inventoryStartParams cycles)
  | .inventoryStop => encodeRequest opInventoryStop []
  | .softwareReset => encodeRequest sw []
  | .setPowerAck p => encodeResponse opSetPower p
  | .getPowerAck p => encodeResponse opGetPower p
  | .setAntennaAck p => encodeResponse opSetAntenna p
  | .getAntennaAck p => encodeResponse opGetAntenna p
  | .setRfModeAck p => encodeResponse opSetRfMode p
  | .getRfModeAck p => encodeResponse opGetRfMode p
  | .setDwellAck p => encodeResponse opSetDwell p
  | .getDwellAck p => encodeResponse opGetDwell p
  | .inventoryStartAck p => encodeResponse opInventoryStart p
  | .inventoryStopAck p => encodeResponse opInventoryStop p
  | .softwareResetAck p => encodeResponse sw p
  | .tagRecord pc epc rssi ant =>
    StepKind.tagSpan.code :: frameEncode tagFrameOpcode (tagFrameParams pc epc rssi ant)
  | .txSend => encodeWrite 0x0C#8 cmdTxSend
  | .txClr => encodeWrite 0x0C#8 cmdTxClr
  | .rxPop => encodeWrite 0x0C#8 cmdRxPop
  | .rxFlush => encodeWrite 0x0C#8 cmdRxFlush
  | .tagPop => encodeWrite 0x0C#8 cmdTagPop
  | .tagEnd => encodeWrite 0x0C#8 cmdTagEnd
  | .tagFlush => encodeWrite 0x0C#8 cmdTagFlush
  | .cntClr => encodeWrite 0x0C#8 cmdCntClr
  | .blkReset => encodeWrite 0x0C#8 cmdBlkReset
  | .ctrlWrite v => encodeWrite 0x00#8 v
  | .statusW1c v => encodeWrite 0x04#8 v
  | .ieWrite v => encodeWrite 0x08#8 v
  | .cmdWrite v => encodeWrite 0x0C#8 v
  | .txOpcodeWrite v => encodeWrite 0x10#8 v
  | .txDataWrite v => encodeWrite 0x14#8 v
  | .expOpcodeWrite v => encodeWrite 0x1C#8 v
  | .roOrUnmappedWrite o v => encodeWrite o v
  | .ctrlRead => encodeRead 0x00#8
  | .statusRead => encodeRead 0x04#8
  | .ieRead => encodeRead 0x08#8
  | .txOpcodeRead => encodeRead 0x10#8
  | .txPlenRead => encodeRead 0x18#8
  | .expOpcodeRead => encodeRead 0x1C#8
  | .rxHdrRead => encodeRead 0x20#8
  | .rxInfoRead => encodeRead 0x24#8
  | .rxRidxRead => encodeRead 0x2C#8
  | .tagHdrRead => encodeRead 0x30#8
  | .tagRssiRead => encodeRead 0x34#8
  | .levelsRead => encodeRead 0x38#8
  | .cntRxdropRead => encodeRead 0x3C#8
  | .cntFramesRead => encodeRead 0x40#8
  | .cntTagsRead => encodeRead 0x44#8
  | .cfg0Read => encodeRead 0x48#8
  | .cfg1Read => encodeRead 0x4C#8
  | .tagEpcRead k => encodeRead (tagEpcOffset k)
  | .rxDataRead => encodeRead 0x28#8
  | .unmappedOrWoRead o => encodeRead o
  | .rxByte b => [StepKind.receivedByte.code, b]
  | .tagFeed b => [StepKind.fedByte.code, b]
  | .rxLineError => [StepKind.lineError.code]
  | .txAccept => [StepKind.transmitAccept.code]
  | .delinStep => [StepKind.delineator.code]
  | .tagStep => [StepKind.tagEngine.code]
  | .hardReset => [StepKind.reset.code]

/-! ### Accesses at host addresses (20_memory.md R101)

The platform, not RLF, decodes the address bits above bit 7: it turns a host access into a window access or gives it to another device.
Such an entry is the interface byte, the number of address bytes, those bytes most significant first, the size, and for a write the data
(log 22). -/

/-- The byte that names a host write at an address (log 22). -/
def hostWriteKind : Byte := 0x77#8

/-- The byte that names a host read at an address (log 22). -/
def hostReadKind : Byte := 0x72#8

/-- What the platform makes of an entry. -/
inductive Routed where
  /-- It is RLF's: the entry at RLF's own interface. -/
  | rlf (entry : List Byte)
  /-- It is an access outside the register window: another device's. -/
  | elsewhere
  /-- It names an address access but is too short to be one. -/
  | malformed
  deriving DecidableEq, Repr

/-- Route an access of the window kind `kind` whose address has `n` bytes, the first of `rest` (20_memory.md R101). -/
def routeAccess (base : Nat) (kind : Byte) (n : Nat) (rest : List Byte) : Routed :=
  if rest.length ≤ n then .malformed
  else
    match windowOffset base (addressOf (rest.take n)) with
    | some off => .rlf (kind :: byteAt rest n :: off :: rest.drop (n + 1))
    | none => .elsewhere

/-- The platform's decoding of an entry, where RLF_BASE is `base`: an access at `base + off` is RLF's access at offset `off`
(20_memory.md R101); every entry without a host address is RLF's as it stands. -/
def route (base : Nat) (m : List Byte) : Routed :=
  match m with
  | [] => .rlf []
  | k :: body =>
    if k = hostWriteKind then routeAccess base StepKind.busWrite.code (byteAt body 0).toNat (body.drop 1)
    else if k = hostReadKind then routeAccess base StepKind.busRead.code (byteAt body 0).toNat (body.drop 1)
    else .rlf (k :: body)

/-- A 32-bit host write of `v` at the address with the bytes `addr`, as an entry. -/
def encodeHostWrite (addr : List Byte) (v : Word) : List Byte :=
  hostWriteKind :: BitVec.ofNat 8 addr.length :: addr ++ fullAccess :: wordBytes v

/-- A 32-bit host read at the address with the bytes `addr`, as an entry. -/
def encodeHostRead (addr : List Byte) : List Byte :=
  hostReadKind :: BitVec.ofNat 8 addr.length :: addr ++ [fullAccess]

/-! ### The numbers of spec/opcode_table.json (log 5) -/

/-- How many PARAMS bytes each documented request has (30_encoding.md R142). -/
def requestParamCount (op : Byte) : Option Nat :=
  if op = opSetPower then some 6
  else if op = opGetPower then some 0
  else if op = opSetAntenna then some 3
  else if op = opGetAntenna then some 0
  else if op = opSetRfMode then some 3
  else if op = opGetRfMode then some 2
  else if op = opSetDwell then some 5
  else if op = opGetDwell then some 0
  else if op = opInventoryStart then some 2
  else if op = opInventoryStop then some 0
  else none

/-- The register offsets a write has an effect at (40_host_access.md R181). -/
def writableOffsets : List Byte := [0x00#8, 0x04#8, 0x08#8, 0x0C#8, 0x10#8, 0x14#8, 0x1C#8]

/-- The 8-bit numbers that name no register offset and no documented opcode, but a command bit (10_state.md R43). -/
def commandOnlyNumbers : List Byte := [0x01#8, 0x02#8, 0x80#8]

/-- The entry of an 8-bit number of the table, every operand 0: an opcode of a request, else of an ack, else a command bit that is no
register offset, else a register offset written, else a register offset read (log 5). -/
def entryOfByte (b : Byte) : List Byte :=
  match requestParamCount b with
  | some n => encodeRequest b (List.replicate n 0x00#8)
  | none =>
    if (documentedRequests.map ackOpcode).contains b then StepKind.responseFrame.code :: frameEncode b []
    else if commandOnlyNumbers.contains b then encodeWrite 0x0C#8 (b.setWidth 32)
    else if writableOffsets.contains b then encodeWrite b 0x00000000#32
    else encodeRead b

/-- The bytes of TAG_RECORD's number: its SOF, every later byte 0 (PC 0, so no EPC byte: 13 bytes). -/
def zeroTagSpan : List Byte := sof0 :: sof1 :: List.replicate 11 0x00#8

/-- Is this the number of the tag-record row, A5 5A read as one number? -/
def isTagNumber (nbits w : Nat) : Bool := nbits == 16 && w == 0xA55A

/-- The entry of an instruction whose bits the table gives as the number `w` of `nbits` bits (log 5): 32 bits are a CMD word, 16 bits a
tag record, 8 bits `entryOfByte`. -/
def entryOfTableWord (nbits w : Nat) : List Byte :=
  if nbits = 32 then encodeWrite 0x0C#8 (BitVec.ofNat 32 w)
  else if isTagNumber nbits w then StepKind.tagSpan.code :: zeroTagSpan
  else if nbits = 8 then entryOfByte (BitVec.ofNat 8 w)
  else []

/-- The instruction the decoder reads from the table's number `w` of `nbits` bits. -/
def decodeTableWord (nbits w : Nat) : Option Instr :=
  match decode Config.swResetOpcode (entryOfTableWord nbits w) with
  | .ok i => some i
  | .error _ => none

end Sys2Proof
end

