-- ==== Sys2Proof/Machine/State.lean ====
section
/-! DEFINITION. The state of RLF as plain data (10_state.md), its value after reset (R63), and the reasons a step can stop. -/

namespace Sys2Proof.Machine

/-- The RX frame slot (10_state.md R58). RX_PLEN is the length of `pbuf`. -/
structure Slot where
  /-- RX_VALID. -/
  valid : Bool
  /-- RX_OPCODE. -/
  opcode : Byte
  /-- RX_LEN. -/
  len : Half
  /-- RX_PBUF. -/
  pbuf : List Byte
  /-- RX_CHK, the received CHECKSUM byte. -/
  chk : Byte
  /-- RX_CALC, the checksum RLF computed. -/
  computed : Byte
  /-- CHK_OK. -/
  chkOk : Bool
  /-- EOF_OK. -/
  eofOk : Bool
  /-- RX_RIDX, the index of the next PARAMS byte RX_DATA returns. -/
  ridx : Half
  deriving DecidableEq, Repr

/-- The slot holding no frame: every field 0 (10_state.md R58, 42_rx_framer.md R262). -/
def Slot.empty : Slot :=
  { valid := false, opcode := 0x00#8, len := 0x0000#16, pbuf := [], chk := 0x00#8, computed := 0x00#8,
    chkOk := false, eofOk := false, ridx := 0x0000#16 }

/-- A tag record (10_state.md R61). -/
structure TagRecord where
  /-- PC word, bits 10:0 kept unchanged (30_encoding.md R137). -/
  pc : Half
  /-- EPC_LEN, 0 to 62. -/
  epcLen : Nat
  /-- EPC, byte 0 first. -/
  epc : List Byte
  /-- RSSI_RAW. -/
  rssi : Half
  /-- ANT. -/
  ant : Byte
  deriving DecidableEq, Repr

/-- Everything the spec gives RLF (10_state.md sections 2 and 3), and five fields of the model's own: `cfg`, `rdata`,
`pending`, `turn`, `slack`. -/
structure State where
  /-- The implementation parameters (00_scope.md R8, 20_memory.md R101); no step changes them. -/
  cfg : Params
  /-- CTRL (R34). -/
  ctrl : Word
  /-- The sticky bits of STATUS, each at its STATUS position 18:8 (R36). -/
  sticky : Word
  /-- IE (R37). -/
  ie : Word
  /-- TX_OPCODE (R39). -/
  txOpcode : Byte
  /-- EXP_OPCODE (R42). -/
  expOpcode : Byte
  /-- TXBUF (R56). -/
  txbuf : List Byte
  /-- TX_FRAME (R56). -/
  txFrame : List Byte
  /-- TX_IDX (R56). -/
  txIdx : Nat
  /-- TX_BUSY (R56). -/
  txBusy : Bool
  /-- RXQ, oldest first (R57). -/
  rxq : List Byte
  /-- The RX slot (R58). -/
  slot : Slot
  /-- W, the tag window (R60). -/
  win : List Byte
  /-- SKIP (R60). -/
  skip : Nat
  /-- ENDING (R60). -/
  ending : Bool
  /-- TAGQ, oldest first (R61). -/
  tagq : List TagRecord
  /-- CNT_RXDROP (R53). -/
  cntRxdrop : Word
  /-- CNT_FRAMES (R53). -/
  cntFrames : Word
  /-- CNT_TAGS (R53). -/
  cntTags : Word
  /-- TXWIRE, the bytes transmitted since the last HardReset (R31, R441). -/
  txwire : List Byte
  /-- The value the last HostRead returned on the host bus (R30); the model's own observation (log 11). -/
  rdata : Word
  /-- The steps already chosen, each as its encoded entry, the next first (log 1). -/
  pending : List (List Byte)
  /-- How many engine turns the free choice has had (log 2). -/
  turn : Nat
  /-- How many free steps are left before the next engine turn (log 2). -/
  slack : Nat
  deriving DecidableEq, Repr

/-- A stop of the machine. RLF has no trap and no rule that stops it (60_exceptions.md R400): the one fault is the schedule's. -/
inductive Fault where
  /-- The next entry of the schedule is the encoding of no step of any agent (00_scope.md R10), so the machine has no transition: it
  is stuck. Raised by `step` only. Safe: the hardware is never presented with such a step (log 18). -/
  | undecodable (e : DecodeError)
  deriving DecidableEq, Repr

/-- A step the model does not give. -/
inductive Refusal where
  /-- An instruction with no meaning yet. Raised by an arm of `exec` only; no arm raises it. Safe. -/
  | notModelled (mnemonic : String)
  /-- A host access narrower than 32 bits: the spec tells a model to refuse it (20_memory.md R105, 93_implementation_defined.md I6).
  Raised by `step` only. Safe (log 17). -/
  | narrowAccess
  deriving DecidableEq, Repr

/-- The reset table of 10_state.md R63, with the model's own fields at the values of log 1, log 2, log 11 and log 12. -/
def State.reset : State :=
  { cfg := Config.params
    ctrl := 0x0000000C#32
    sticky := 0x00000000#32
    ie := 0x00000000#32
    txOpcode := 0x00#8
    expOpcode := 0x00#8
    txbuf := []
    txFrame := []
    txIdx := 0
    txBusy := false
    rxq := []
    slot := Slot.empty
    win := []
    skip := 0
    ending := false
    tagq := []
    cntRxdrop := 0x00000000#32
    cntFrames := 0x00000000#32
    cntTags := 0x00000000#32
    txwire := []
    rdata := 0x00000000#32
    pending := []
    turn := 0
    slack := 0 }

end Sys2Proof.Machine
end

