-- ==== Sys2Proof/Machine/Flags.lean ====
section
/-! DEFINITION. CTRL fields, the events and their codes, STATUS and the interrupt line, and the value each register reads as
(10_state.md R34 to R55). -/

namespace Sys2Proof.Machine

/-! ### CTRL (R34) -/

/-- CTRL.RXF_EN. -/
def rxfEn (s : State) : Bool := s.ctrl.getLsbD 0
/-- CTRL.TAG_EN. -/
def tagEn (s : State) : Bool := s.ctrl.getLsbD 1
/-- CTRL.CHK_EN. -/
def chkEn (s : State) : Bool := s.ctrl.getLsbD 2
/-- CTRL.EOF_EN. -/
def eofEn (s : State) : Bool := s.ctrl.getLsbD 3

/-- The CTRL value with the given fields; bits 31:4 are reserved and 0 (R34). -/
def ctrlWord (eof chk tag rxf : Bool) : Word :=
  0#28 ++ BitVec.ofBool eof ++ BitVec.ofBool chk ++ BitVec.ofBool tag ++ BitVec.ofBool rxf

/-! ### Events (60_exceptions.md R401) -/

/-- The events RLF raises (60_exceptions.md R401). -/
inductive Event where
  | txDone
  | rxOvf
  | lenErr
  | chkErr
  | eofErr
  | tagUnderrun
  | tagOvf
  | tagDone
  | cmdErr
  | txpOvf
  | xportErr
  deriving DecidableEq, Repr

/-- An event's code, its STATUS bit number (10_state.md R36, 60_exceptions.md R401). -/
def eventCode : Event → Nat
  | .txDone => 8
  | .rxOvf => 9
  | .lenErr => 10
  | .chkErr => 11
  | .eofErr => 12
  | .tagUnderrun => 13
  | .tagOvf => 14
  | .tagDone => 15
  | .cmdErr => 16
  | .txpOvf => 17
  | .xportErr => 18

/-- The STATUS word with an event's bit alone set. -/
def eventBit (e : Event) : Word := 0x00000001#32 <<< eventCode e

/-- STATUS bits 18:8, the sticky bits (R36). -/
def stickyMask : Word := 0x0007FF00#32

/-- The bits IE implements, {1, 2, 8..18} (R37, 40_host_access.md R184). -/
def ieMask : Word := 0x0007FF06#32

/-! ### STATUS and irq -/

/-- STATUS bits 3:0 (R35): TAG_BUSY, TAG_VALID, RX_VALID, TX_BUSY. -/
def liveBits (s : State) : Word :=
  0#28 ++ BitVec.ofBool s.ending ++ BitVec.ofBool (!s.tagq.isEmpty) ++ BitVec.ofBool s.slot.valid ++ BitVec.ofBool s.txBusy

/-- STATUS (R35, R36). -/
def statusValue (s : State) : Word := s.sticky ||| liveBits s

/-- The interrupt line: some enabled STATUS bit of {1, 2, 8..18} is 1 (R38, 60_exceptions.md R407). -/
def irq (s : State) : Bool := (statusValue s &&& s.ie &&& ieMask) != 0x00000000#32

/-! ### Register values (10_state.md R34 to R55) -/

/-- TX_PLEN (R41). -/
def txPlenValue (s : State) : Word := 0#16 ++ BitVec.ofNat 16 s.txbuf.length

/-- RX_PLEN (R58). -/
def rxPlen (s : State) : Nat := s.slot.pbuf.length

/-- RX_HDR (R44). -/
def rxHdrValue (s : State) : Word :=
  if s.slot.valid then s.slot.len ++ s.slot.chk ++ s.slot.opcode else 0x00000000#32

/-- RX_INFO.ACK_MATCH, computed at every read (R46). -/
def ackMatch (s : State) : Bool := s.slot.valid && s.slot.opcode == s.expOpcode

/-- RX_INFO (R45). -/
def rxInfoValue (s : State) : Word :=
  if s.slot.valid then
    0#5 ++ BitVec.ofBool (ackMatch s) ++ BitVec.ofBool s.slot.eofOk ++ BitVec.ofBool s.slot.chkOk ++ s.slot.computed ++
      BitVec.ofNat 16 (rxPlen s)
  else 0x00000000#32

/-- TAG_HDR (R49). -/
def tagHdrValue (s : State) : Word :=
  match s.tagq with
  | [] => 0x00000000#32
  | r :: _ => r.pc ++ r.ant ++ BitVec.ofNat 8 r.epcLen

/-- TAG_RSSI (R50). -/
def tagRssiValue (s : State) : Word :=
  match s.tagq with
  | [] => 0x00000000#32
  | r :: _ => r.rssi.signExtend 32

/-- `e(j)` of R51: EPC byte `j` of a record, 0 past its end. -/
def epcByte (r : TagRecord) (j : Nat) : Byte := if j < r.epcLen then byteAt r.epc j else 0x00#8

/-- TAG_EPCk (R51). -/
def tagEpcValue (k : BitVec 4) (s : State) : Word :=
  match s.tagq with
  | [] => 0x00000000#32
  | r :: _ =>
    epcByte r (4 * k.toNat) ++ epcByte r (4 * k.toNat + 1) ++ epcByte r (4 * k.toNat + 2) ++ epcByte r (4 * k.toNat + 3)

/-- LEVELS (R52). -/
def levelsValue (s : State) : Word :=
  BitVec.ofNat 8 s.tagq.length ++ BitVec.ofNat 8 s.win.length ++ BitVec.ofNat 16 s.rxq.length

/-- CFG0 (R54). -/
def cfg0Value (s : State) : Word := BitVec.ofNat 16 s.cfg.rxpDepth ++ BitVec.ofNat 16 s.cfg.txpDepth

/-- CFG1 (R54). -/
def cfg1Value (s : State) : Word :=
  BitVec.ofNat 8 s.cfg.tagqDepth ++ BitVec.ofNat 8 s.cfg.tagwDepth ++ BitVec.ofNat 16 s.cfg.rxqDepth

/-- What RX_DATA returns: the next PARAMS byte, or 0 past the last (42_rx_framer.md R261). -/
def rxDataValue (s : State) : Word :=
  if s.slot.valid && decide (s.slot.ridx.toNat < rxPlen s) then (byteAt s.slot.pbuf s.slot.ridx.toNat).setWidth 32
  else 0x00000000#32

/-- `value(o)` of 40_host_access.md R180: what the register at offset `off AND 0xFC` reads as, RX_DATA's value included. -/
def registerValue (off : Byte) (s : State) : Word :=
  let o := registerOffset off
  if o = 0x00#8 then s.ctrl
  else if o = 0x04#8 then statusValue s
  else if o = 0x08#8 then s.ie
  else if o = 0x10#8 then s.txOpcode.setWidth 32
  else if o = 0x18#8 then txPlenValue s
  else if o = 0x1C#8 then s.expOpcode.setWidth 32
  else if o = 0x20#8 then rxHdrValue s
  else if o = 0x24#8 then rxInfoValue s
  else if o = 0x28#8 then rxDataValue s
  else if o = 0x2C#8 then s.slot.ridx.setWidth 32
  else if o = 0x30#8 then tagHdrValue s
  else if o = 0x34#8 then tagRssiValue s
  else if o = 0x38#8 then levelsValue s
  else if o = 0x3C#8 then s.cntRxdrop
  else if o = 0x40#8 then s.cntFrames
  else if o = 0x44#8 then s.cntTags
  else if o = 0x48#8 then cfg0Value s
  else if o = 0x4C#8 then cfg1Value s
  else if readIsZero o then 0x00000000#32
  else tagEpcValue (((o - 0x50#8) >>> 2).setWidth 4) s

end Sys2Proof.Machine
end

