-- ==== Sys2Proof/Machine/Delineator.lean ====
section
/-! DEFINITION. The delineation functions of the RX framer (42_rx_framer.md sections 2 and 3): pure functions of a byte sequence. -/

namespace Sys2Proof.Machine

/-- Why `classify` drops a byte (42_rx_framer.md R251). -/
inductive DropReason where
  | sof
  | len
  | cand (chkOk eofOk : Bool)
  deriving DecidableEq, Repr

/-- The results of `classify` (42_rx_framer.md R251). -/
inductive Classified where
  | wait
  | drop (reason : DropReason)
  | accept (f : List Byte) (computed : Byte) (chkOk eofOk : Bool)
  deriving DecidableEq, Repr

/-- The checksum of the complete candidate `f` (42_rx_framer.md R256): the XOR of `f[2..L-4]`. -/
def candidateCalc (f : List Byte) : Byte := checksum (slice f 2 (f.length - 3))

/-- Whether the candidate's CHECKSUM byte is the computed one (42_rx_framer.md R256). -/
def candidateChkOk (f : List Byte) : Bool := candidateCalc f == byteAt f (f.length - 3)

/-- Whether the candidate ends in 0D 0A (42_rx_framer.md R256). -/
def candidateEofOk (f : List Byte) : Bool := byteAt f (f.length - 2) == eof0 && byteAt f (f.length - 1) == eof1

/-- The judgement of a complete candidate under CHK_EN and EOF_EN (42_rx_framer.md R251, R258). -/
def judge (chk eof : Bool) (f : List Byte) : Classified :=
  if (chk && !(candidateChkOk f)) || (eof && !(candidateEofOk f)) then .drop (.cand (candidateChkOk f) (candidateEofOk f))
  else .accept f (candidateCalc f) (candidateChkOk f) (candidateEofOk f)

/-- `classify(q)` with CHK_EN, EOF_EN and MAX_FRAME (42_rx_framer.md R251). -/
def classify (maxFrame : Nat) (chk eof : Bool) (q : List Byte) : Classified :=
  if q.length = 0 then .wait
  else if byteAt q 0 ≠ sof0 then .drop .sof
  else if q.length = 1 then .wait
  else if byteAt q 1 ≠ sof1 then .drop .sof
  else if q.length < 4 then .wait
  else
    let l := (be16 (byteAt q 2) (byteAt q 3)).toNat
    if l < frameOverhead ∨ maxFrame < l then .drop .len
    else if q.length < l then .wait
    else judge chk eof (q.take l)

/-- The results of `try_parse` (42_rx_framer.md R252). -/
inductive Parsed where
  | frame (f : List Byte) (next : Nat)
  | incomplete (at_ : Nat)
  | notFound (at_ : Nat)
  deriving DecidableEq, Repr

/-- `try_parse` from index `n` on, the bytes before it discarded (42_rx_framer.md R252). -/
def tryParseFrom (maxFrame : Nat) (chk eof : Bool) (n : Nat) : List Byte → Parsed
  | [] => .notFound n
  | b :: t =>
    match classify maxFrame chk eof (b :: t) with
    | .accept f _ _ _ => .frame f (n + f.length)
    | .wait => if 2 ≤ (b :: t).length then .incomplete n else .notFound n
    | .drop _ => tryParseFrom maxFrame chk eof (n + 1) t

/-- `try_parse(q)`, the source's function (42_rx_framer.md R252): a reference; the delineator's steps compute it. -/
def tryParse (maxFrame : Nat) (chk eof : Bool) (q : List Byte) : Parsed := tryParseFrom maxFrame chk eof 0 q

end Sys2Proof.Machine
end

