-- ==== Sys2Proof/Machine/TagParser.lean ====
section
/-! DEFINITION. The record-extraction functions of the tag parser (43_tag_parser.md sections 2 and 5): pure functions of a byte sequence. -/

namespace Sys2Proof.Machine

/-- The results of `tclass` (43_tag_parser.md R302). -/
inductive TagClass where
  | idle
  | wait
  | skip1
  | underrun
  | record (r : TagRecord)
  deriving DecidableEq, Repr

/-- The record a complete candidate `w` with PC word `pc` holds (30_encoding.md R136 to R139, 43_tag_parser.md R302). -/
def recordAt (w : List Byte) (pc : Half) : TagRecord :=
  { pc := pc
    epcLen := epcLength pc
    epc := slice w 7 (7 + epcLength pc)
    rssi := be16 (byteAt w (7 + epcLength pc)) (byteAt w (8 + epcLength pc))
    ant := byteAt w (9 + epcLength pc) }

/-- A candidate whose bytes are not all there: it waits, or the burst has ended inside it (43_tag_parser.md R302). -/
def shortCandidate (last : Bool) : TagClass := if last then .underrun else .wait

/-- `tclass(w, end)` (43_tag_parser.md R302). -/
def tclass (w : List Byte) (last : Bool) : TagClass :=
  if w.length = 0 then .idle
  else if byteAt w 0 ≠ sof0 then .skip1
  else if w.length = 1 then (if last then .skip1 else .wait)
  else if byteAt w 1 ≠ sof1 then .skip1
  else if w.length < 7 then shortCandidate last
  else
    let pc := be16 (byteAt w 5) (byteAt w 6)
    if w.length < recordNeed (epcLength pc) then shortCandidate last
    else .record (recordAt w pc)

/-- The loop of `decode(B)` (43_tag_parser.md R314) on what is left of the buffer; every turn takes at least one byte, so the
buffer's length bounds the turns. -/
def tagDecodeLoop : Nat → List Byte → List TagRecord
  | 0, _ => []
  | fuel + 1, b =>
    match tclass b true with
    | .idle => []
    | .wait => []
    | .skip1 => tagDecodeLoop fuel (b.drop 1)
    | .underrun => tagDecodeLoop fuel (b.drop 1)
    | .record r => r :: tagDecodeLoop fuel (b.drop (recordSpan r.epcLen))

/-- `decode(B)`, the source's function on a whole buffer (43_tag_parser.md R314): a reference; a burst computes it (R315). -/
def tagDecode (b : List Byte) : List TagRecord := tagDecodeLoop b.length b

end Sys2Proof.Machine
end

