-- ==== Sys2Proof/Machine/Ops.lean ====
section
/-! DEFINITION. The named operations over the state that the instructions share. The first part holds the unconditional updates, each a
record update; the second part the operations the rules give, written over them. -/

namespace Sys2Proof.Machine

/-! ### Unconditional updates -/

/-- `raise Event(NAME)`: set the event's sticky bit; nothing else changes and no step is stopped (00_scope.md R16, 60_exceptions.md
R400). RLF's form of taking an exception. -/
def raise (e : Event) (s : State) : State := { s with sticky := s.sticky ||| eventBit e }

/-- The W1C write: each sticky bit written 1 is cleared (40_host_access.md R186). RLF's form of returning from an exception
(60_exceptions.md R408). -/
def clearSticky (v : Word) (s : State) : State := { s with sticky := s.sticky &&& ~~~(v &&& stickyMask) }

/-- `HostRead` returns `v` on the host bus (10_state.md R30; log 11). -/
def busReturn (v : Word) (s : State) : State := { s with rdata := v }

/-- `CTRL <- v`. -/
def setCtrl (v : Word) (s : State) : State := { s with ctrl := v }

/-- `IE <- v`. -/
def setIe (v : Word) (s : State) : State := { s with ie := v }

/-- `TX_OPCODE <- b`. -/
def setTxOpcode (b : Byte) (s : State) : State := { s with txOpcode := b }

/-- `EXP_OPCODE <- b`. -/
def setExpOpcode (b : Byte) (s : State) : State := { s with expOpcode := b }

/-- `TXBUF <- p`. -/
def setTxbuf (p : List Byte) (s : State) : State := { s with txbuf := p }

/-- Latch the frame of TX_OPCODE and TXBUF and start transmitting it (41_tx_framer.md R223). -/
def latchFrame (s : State) : State :=
  { s with
    txFrame := frameEncode s.txOpcode s.txbuf
    txIdx := 0
    txBusy := true
    expOpcode := ackOpcode s.txOpcode }

/-- `emit(TX_FRAME[TX_IDX])` and advance TX_IDX (41_tx_framer.md R226). -/
def emitByte (s : State) : State :=
  { s with txwire := s.txwire ++ [byteAt s.txFrame s.txIdx], txIdx := s.txIdx + 1 }

/-- `TX_BUSY <- 0`. -/
def endTransmit (s : State) : State := { s with txBusy := false }

/-- `RXQ <- append(RXQ, b)`. -/
def appendRxq (b : Byte) (s : State) : State := { s with rxq := s.rxq ++ [b] }

/-- Resynchronise: discard RXQ[0] and count it (42_rx_framer.md R254). -/
def dropRxq (s : State) : State := { s with rxq := s.rxq.drop 1, cntRxdrop := s.cntRxdrop + 1#32 }

/-- `RXQ <- []`. -/
def clearRxq (s : State) : State := { s with rxq := [] }

/-- The slot's contents for the accepted frame `f` (42_rx_framer.md R259). -/
def slotOf (f : List Byte) (computed : Byte) (chkOk eofOk : Bool) : Slot :=
  { valid := true
    opcode := byteAt f 4
    len := BitVec.ofNat 16 f.length
    pbuf := slice f 5 (f.length - 3)
    chk := byteAt f (f.length - 3)
    computed := computed
    chkOk := chkOk
    eofOk := eofOk
    ridx := 0x0000#16 }

/-- Deliver an accepted frame: fill the slot, take the frame off RXQ, count it (42_rx_framer.md R259). -/
def deliver (f : List Byte) (computed : Byte) (chkOk eofOk : Bool) (s : State) : State :=
  { s with
    slot := slotOf f computed chkOk eofOk
    rxq := s.rxq.drop f.length
    cntFrames := s.cntFrames + 1#32 }

/-- Empty the slot: every field 0 (42_rx_framer.md R262). -/
def emptySlot (s : State) : State := { s with slot := Slot.empty }

/-- `RX_RIDX <- RX_RIDX + 1` (42_rx_framer.md R261). -/
def advanceRidx (s : State) : State := { s with slot := { s.slot with ridx := s.slot.ridx + 1#16 } }

/-- `SKIP <- SKIP - 1` (43_tag_parser.md R300). -/
def takeTrailerByte (s : State) : State := { s with skip := s.skip - 1 }

/-- `W <- append(W, b)` (43_tag_parser.md R300). -/
def appendWin (b : Byte) (s : State) : State := { s with win := s.win ++ [b] }

/-- `W <- drop(W, 1)` (43_tag_parser.md R304). -/
def dropWin (s : State) : State := { s with win := s.win.drop 1 }

/-- Push a record, count it, and skip its span: the bytes of it in W now, the rest as they arrive (43_tag_parser.md R305, R307). -/
def emitRecord (r : TagRecord) (s : State) : State :=
  { s with
    tagq := s.tagq ++ [r]
    cntTags := s.cntTags + 1#32
    win := s.win.drop (min s.win.length (recordSpan r.epcLen))
    skip := recordSpan r.epcLen - min s.win.length (recordSpan r.epcLen) }

/-- `ENDING <- 0; SKIP <- 0` (43_tag_parser.md R309). -/
def endBurst (s : State) : State := { s with ending := false, skip := 0 }

/-- `CTRL.TAG_EN <- 0; ENDING <- 1` (43_tag_parser.md R310). -/
def beginEnding (s : State) : State := { s with ctrl := s.ctrl &&& ~~~0x00000002#32, ending := true }

/-- `pop(TAGQ)`, nothing when it is empty (43_tag_parser.md R311). -/
def dropRecord (s : State) : State := { s with tagq := s.tagq.drop 1 }

/-- `W <- []; SKIP <- 0; TAGQ <- empty; ENDING <- 0` (43_tag_parser.md R312). -/
def tagFlush (s : State) : State := { s with win := [], skip := 0, tagq := [], ending := false }

/-- `CNT_RXDROP <- 0; CNT_FRAMES <- 0; CNT_TAGS <- 0` (40_host_access.md R191). -/
def cntClr (s : State) : State :=
  { s with cntRxdrop := 0x00000000#32, cntFrames := 0x00000000#32, cntTags := 0x00000000#32 }

/-- HardReset: every element of 10_state.md R63 takes its reset value; the parameters and the model's own fields are not RLF state
and stay (70_reset_and_hazards.md R440; log 28). -/
def hardReset (s : State) : State :=
  { State.reset with cfg := s.cfg, rdata := s.rdata, pending := s.pending, turn := s.turn, slack := s.slack }

/-- BLK_RESET: as HardReset, but TXWIRE keeps the bytes already transmitted (70_reset_and_hazards.md R441). -/
def blkReset (s : State) : State := { hardReset s with txwire := s.txwire }

/-! ### Host operations -/

/-- `CTRL_write(v)` (40_host_access.md R182): TAG_EN is refused while an end of burst runs (R193). -/
def ctrlWrite (v : Word) (s : State) : State :=
  let refused := v.getLsbD 1 && s.ending
  let word := ctrlWord (v.getLsbD 3) (v.getLsbD 2) (v.getLsbD 1 && !s.ending) (v.getLsbD 0)
  if refused then setCtrl word (raise .cmdErr s) else setCtrl word s

/-- `TX_OPCODE_write(v)` (41_tx_framer.md R220). -/
def txOpcodeWrite (v : Word) (s : State) : State :=
  if s.txBusy then raise .cmdErr s else setTxOpcode (v.setWidth 8) s

/-- `TX_DATA_write(v)` (41_tx_framer.md R221): busy is tested before full. -/
def txDataWrite (v : Word) (s : State) : State :=
  if s.txBusy then raise .cmdErr s
  else if s.txbuf.length = s.cfg.txpDepth then raise .txpOvf s
  else setTxbuf (s.txbuf ++ [v.setWidth 8]) s

/-- `TX_CLR()` (41_tx_framer.md R222). -/
def txClr (s : State) : State := if s.txBusy then raise .cmdErr s else setTxbuf [] s

/-- `TX_SEND()` (41_tx_framer.md R223). -/
def txSend (s : State) : State := if s.txBusy then raise .cmdErr s else latchFrame s

/-- `RX_POP()` (42_rx_framer.md R262). -/
def rxPop (s : State) : State := if s.slot.valid then emptySlot s else s

/-- `RX_FLUSH()` (42_rx_framer.md R263). -/
def rxFlush (s : State) : State := rxPop (clearRxq s)

/-- `TAG_POP()` (43_tag_parser.md R311). -/
def tagPop (s : State) : State := dropRecord s

/-- `TAG_END()` (43_tag_parser.md R310). -/
def tagEnd (s : State) : State := if s.ending then raise .cmdErr s else beginEnding s

/-- One command of a CMD word: run it when its bit is 1 (40_host_access.md R189). -/
def whenBit (v : Word) (i : Nat) (f : State → State) (s : State) : State := if v.getLsbD i then f s else s

/-- `CMD_write(v)` (40_host_access.md R189): BLK_RESET alone, or the commands in R189's order, each seeing the state the one before
it left. -/
def cmdWrite (v : Word) (s : State) : State :=
  if v.getLsbD 31 then blkReset s
  else
    whenBit v 7 cntClr (whenBit v 0 txSend (whenBit v 1 txClr (whenBit v 5 tagEnd (whenBit v 4 tagPop
      (whenBit v 6 tagFlush (whenBit v 2 rxPop (whenBit v 3 rxFlush s)))))))

/-- `RX_DATA_read()` (42_rx_framer.md R261): return the next PARAMS byte and advance, or return 0 and change nothing. -/
def rxDataRead (s : State) : State :=
  if s.slot.valid && decide (s.slot.ridx.toNat < rxPlen s) then advanceRidx (busReturn (rxDataValue s) s)
  else busReturn (rxDataValue s) s

/-- The writes `wr TX_DATA, p0; ...; wr TX_DATA, pn-1` (30_encoding.md R146). -/
def pushParams (p : List Byte) (s : State) : State := p.foldl (fun t b => txDataWrite (b.setWidth 32) t) s

/-- `send OP, [p0, ..., pn-1]` (30_encoding.md R146), its host accesses one after another: the poll reads STATUS, and unless TX_BUSY is 1
the frame is loaded and sent. When the poll fails it has only read STATUS; the host polls again with a later entry (log 7). -/
def hostSend (op : Byte) (p : List Byte) (s : State) : State :=
  let polled := busReturn (statusValue s) s
  if s.txBusy then polled else txSend (pushParams p (txOpcodeWrite (op.setWidth 32) (txClr polled)))

/-! ### The UART -/

/-- `TagFeed(b)` (43_tag_parser.md R300). -/
def tagFeed (b : Byte) (s : State) : State :=
  if !(tagEn s) then s
  else if 0 < s.skip then takeTrailerByte s
  else if s.win.length < s.cfg.tagwDepth then appendWin b s
  else raise .tagOvf s

/-- The delineator's part of `RxByte(b)` (42_rx_framer.md R250). -/
def rxIntake (b : Byte) (s : State) : State :=
  if !(rxfEn s) then s
  else if s.rxq.length < s.cfg.rxqDepth then appendRxq b s
  else raise .rxOvf s

/-- `RxByte(b)` (42_rx_framer.md R250). -/
def rxByte (b : Byte) (s : State) : State := tagFeed b (rxIntake b s)

/-- The UART receive side delivers a byte sequence, one `RxByte` after another (30_encoding.md R145 `env rx`). -/
def rxBytes (f : List Byte) (s : State) : State := f.foldl (fun t b => rxByte b t) s

/-- A response frame of the request opcode `op` arrives (44_commands.md R350, R362; log 8). -/
def rxResponse (op : Byte) (p : List Byte) (s : State) : State := rxBytes (frameEncode (ackOpcode op) p) s

/-- `RxLineError` (60_exceptions.md R409). -/
def rxLineError (s : State) : State := raise .xportErr s

/-- `TxAccept` (41_tx_framer.md R226). Enabled while TX_BUSY = 1; otherwise it holds (log 6). -/
def txAccept (s : State) : State :=
  if !s.txBusy then s
  else if s.txIdx + 1 = s.txFrame.length then raise .txDone (endTransmit (emitByte s))
  else emitByte s

/-! ### The engines -/

/-- The events of a complete candidate (42_rx_framer.md R257). -/
def raiseChecks (chkOk eofOk : Bool) (s : State) : State :=
  let t := if chkOk then s else raise .chkErr s
  if eofOk then t else raise .eofErr t

/-- What `classify` makes of the head of RXQ under the current CTRL (42_rx_framer.md R253). -/
def rxClass (s : State) : Classified := classify s.cfg.maxFrame (chkEn s) (eofEn s) s.rxq

/-- `DelinStep` (42_rx_framer.md R253 to R259). Enabled when RXF_EN = 1, RX_VALID = 0 and the class is not Wait; otherwise it holds
(log 6). -/
def delinStep (s : State) : State :=
  if !(rxfEn s) || s.slot.valid then s
  else
    match rxClass s with
    | .wait => s
    | .drop .sof => dropRxq s
    | .drop .len => dropRxq (raise .lenErr s)
    | .drop (.cand chkOk eofOk) => dropRxq (raiseChecks chkOk eofOk s)
    | .accept f computed chkOk eofOk => deliver f computed chkOk eofOk (raiseChecks chkOk eofOk s)

/-- `TagStep` on `Record(...)` (43_tag_parser.md R305); it holds while TAGQ is full (R308). -/
def tagStepRecord (r : TagRecord) (s : State) : State :=
  if s.tagq.length < s.cfg.tagqDepth then emitRecord r s else s

/-- `TagStep` (43_tag_parser.md R303 to R309). On `Wait`, on `Idle` with ENDING = 0 and on a record with TAGQ full it holds (log 6). -/
def tagStep (s : State) : State :=
  match tclass s.win s.ending with
  | .idle => if s.ending then raise .tagDone (endBurst s) else s
  | .wait => s
  | .skip1 => dropWin s
  | .underrun => dropWin (raise .tagUnderrun s)
  | .record r => tagStepRecord r s

/-- `TagStep` taken where the head of W is the record `r` (43_tag_parser.md R305); where it is not, the step is not enabled and holds
(log 9). -/
def tagRecordStep (r : TagRecord) (s : State) : State :=
  if tclass s.win s.ending = .record r then tagStepRecord r s else s

/-- Take the next entry off the schedule. -/
def dropPending (s : State) : State := { s with pending := s.pending.drop 1 }

/-- Count one free step of the free choice (log 2). -/
def spendSlack (s : State) : State := { s with slack := s.slack - 1 }

/-- Count one engine turn of the free choice, and open the free steps before the next (log 2). -/
def nextTurn (s : State) : State := { s with turn := s.turn + 1, slack := Config.freeSteps (s.turn + 1) }

end Sys2Proof.Machine
end

