-- ==== Sys2Proof/Machine/Agents.lean ====
section
/-! DEFINITION. The agents whose steps are internal to RLF, when each has a step, and whose turn it is where the schedule holds nothing
(00_scope.md R10, R11). -/

namespace Sys2Proof.Machine

/-- The three internal step kinds of 00_scope.md R11. -/
inductive Engine where
  | delineator
  | tagParser
  | transmitter
  deriving DecidableEq, Repr

/-- The step of an engine: DelinStep, TagStep, TxAccept (00_scope.md R10). -/
def engineInstr (e : Engine) : Instr :=
  match e with
  | .delineator => .delinStep
  | .tagParser => .tagStep
  | .transmitter => .txAccept

/-- The UART transmit side is ready (41_tx_framer.md R226), a free condition of the environment (log 2). -/
def uartReady (s : State) : Bool := Config.uartReady s.turn s.slack

/-- DelinStep is enabled (42_rx_framer.md R253). -/
def delinEnabled (s : State) : Bool := rxfEn s && !s.slot.valid && decide (rxClass s ≠ .wait)

/-- TagStep is enabled (43_tag_parser.md R303). -/
def tagEnabled (s : State) : Bool :=
  match tclass s.win s.ending with
  | .idle => s.ending
  | .wait => false
  | .skip1 => true
  | .underrun => true
  | .record _ => decide (s.tagq.length < s.cfg.tagqDepth)

/-- TxAccept is enabled (41_tx_framer.md R226). -/
def txEnabled (s : State) : Bool := s.txBusy && uartReady s

/-- The engine's step is enabled. -/
def engineEnabled (e : Engine) (s : State) : Bool :=
  match e with
  | .delineator => delinEnabled s
  | .tagParser => tagEnabled s
  | .transmitter => txEnabled s

/-- The engine whose turn the `n`-th engine turn is: each in its turn, so that none is passed over for ever (00_scope.md R11; log 2). -/
def engineOfTurn (n : Nat) : Engine :=
  if n % 3 = 0 then .delineator else if n % 3 = 1 then .tagParser else .transmitter

/-- The step taken at an engine turn: the engine's, where it is enabled. -/
def engineTurn (s : State) : Option Instr :=
  if engineEnabled (engineOfTurn s.turn) s then some (engineInstr (engineOfTurn s.turn)) else none

/-- The step taken at a free step: any instruction; the UART takes a byte only where it is ready (41_tx_framer.md R226; log 2). -/
def freeStep (s : State) : Option Instr :=
  if (Config.nextStep s.turn s.slack).wellFormed && (decide (Config.nextStep s.turn s.slack ≠ .txAccept) || uartReady s) then
    some (Config.nextStep s.turn s.slack)
  else none

/-- The step some agent takes where the schedule holds nothing, if any (00_scope.md R10, R11; log 2). -/
def freeChoice (s : State) : Option Instr := if s.slack = 0 then engineTurn s else freeStep s

/-- The counters of the free choice after one choice (log 2). -/
def countChoice (s : State) : State := if s.slack = 0 then nextTurn s else spendSlack s

end Sys2Proof.Machine
end

