-- ==== Sys2Proof/Machine/Commands.lean ====
section
/-! DEFINITION. The meanings of the single commands of CMD (10_state.md R43): a CMD write with that one bit (log 16). -/

namespace Sys2Proof.Machine

/-- TX_SEND (41_tx_framer.md R223). -/
def execTxSend (s : State) : Host.Outcome State Fault Refusal :=
  .next (txSend s)

/-- TX_CLR (41_tx_framer.md R222). -/
def execTxClr (s : State) : Host.Outcome State Fault Refusal :=
  .next (txClr s)

/-- RX_POP (42_rx_framer.md R262). -/
def execRxPop (s : State) : Host.Outcome State Fault Refusal :=
  .next (rxPop s)

/-- RX_FLUSH (42_rx_framer.md R263). -/
def execRxFlush (s : State) : Host.Outcome State Fault Refusal :=
  .next (rxFlush s)

/-- TAG_POP (43_tag_parser.md R311). -/
def execTagPop (s : State) : Host.Outcome State Fault Refusal :=
  .next (tagPop s)

/-- TAG_END (43_tag_parser.md R310). -/
def execTagEnd (s : State) : Host.Outcome State Fault Refusal :=
  .next (tagEnd s)

/-- TAG_FLUSH (43_tag_parser.md R312). -/
def execTagFlush (s : State) : Host.Outcome State Fault Refusal :=
  .next (tagFlush s)

/-- CNT_CLR (40_host_access.md R191). -/
def execCntClr (s : State) : Host.Outcome State Fault Refusal :=
  .next (cntClr s)

/-- BLK_RESET (40_host_access.md R192, 70_reset_and_hazards.md R441). -/
def execBlkReset (s : State) : Host.Outcome State Fault Refusal :=
  .next (blkReset s)

end Sys2Proof.Machine
end

