-- ==== Sys2Proof/Machine/Engines.lean ====
section
/-! DEFINITION. The meanings of the engine and environment steps and of the tag record (41_tx_framer.md R226, 42_rx_framer.md, 43_tag_parser.md, 60_exceptions.md R409, 70_reset_and_hazards.md R440). -/

namespace Sys2Proof.Machine

/-- TAG_RECORD (43_tag_parser.md R305): the TagStep that emits this record, the one at the head of W (log 9). -/
def execTagRecord (pc : Half) (epc : List Byte) (rssi : Half) (ant : Byte) (s : State) : Host.Outcome State Fault Refusal :=
  .next (tagRecordStep { pc := pc, epcLen := epcLength pc, epc := epc, rssi := rssi, ant := ant } s)

/-- RX_BYTE (42_rx_framer.md R250). -/
def execRxByte (b : Byte) (s : State) : Host.Outcome State Fault Refusal :=
  .next (rxByte b s)

/-- TAG_FEED (43_tag_parser.md R300), the tag parser's part of RX_BYTE taken alone (log 10). -/
def execTagFeed (b : Byte) (s : State) : Host.Outcome State Fault Refusal :=
  .next (tagFeed b s)

/-- RX_LINE_ERROR (60_exceptions.md R409). -/
def execRxLineError (s : State) : Host.Outcome State Fault Refusal :=
  .next (rxLineError s)

/-- TX_ACCEPT (41_tx_framer.md R226). -/
def execTxAccept (s : State) : Host.Outcome State Fault Refusal :=
  .next (txAccept s)

/-- DELIN_STEP (42_rx_framer.md R253). -/
def execDelinStep (s : State) : Host.Outcome State Fault Refusal :=
  .next (delinStep s)

/-- TAG_STEP (43_tag_parser.md R303). -/
def execTagStep (s : State) : Host.Outcome State Fault Refusal :=
  .next (tagStep s)

/-- HARD_RESET (70_reset_and_hazards.md R440). -/
def execHardReset (s : State) : Host.Outcome State Fault Refusal :=
  .next (hardReset s)

end Sys2Proof.Machine
end

