-- ==== Sys2Proof/Machine/HostReads.lean ====
section
/-! DEFINITION. The meanings of the host reads (40_host_access.md R180, R183): the value goes to `rdata`, what HostRead returns (log 11). -/

namespace Sys2Proof.Machine

/-- CTRL_READ (40_host_access.md R180; 10_state.md R34). -/
def execCtrlRead (s : State) : Host.Outcome State Fault Refusal :=
  .next (busReturn s.ctrl s)

/-- STATUS_READ (40_host_access.md R180; 10_state.md R35, R36). -/
def execStatusRead (s : State) : Host.Outcome State Fault Refusal :=
  .next (busReturn (statusValue s) s)

/-- IE_READ (40_host_access.md R180; 10_state.md R37). -/
def execIeRead (s : State) : Host.Outcome State Fault Refusal :=
  .next (busReturn s.ie s)

/-- TX_OPCODE_READ (40_host_access.md R180; 10_state.md R39). -/
def execTxOpcodeRead (s : State) : Host.Outcome State Fault Refusal :=
  .next (busReturn (s.txOpcode.setWidth 32) s)

/-- TX_PLEN_READ (40_host_access.md R180; 10_state.md R41). -/
def execTxPlenRead (s : State) : Host.Outcome State Fault Refusal :=
  .next (busReturn (txPlenValue s) s)

/-- EXP_OPCODE_READ (40_host_access.md R180; 10_state.md R42). -/
def execExpOpcodeRead (s : State) : Host.Outcome State Fault Refusal :=
  .next (busReturn (s.expOpcode.setWidth 32) s)

/-- RX_HDR_READ (40_host_access.md R180; 10_state.md R44). -/
def execRxHdrRead (s : State) : Host.Outcome State Fault Refusal :=
  .next (busReturn (rxHdrValue s) s)

/-- RX_INFO_READ (40_host_access.md R180; 10_state.md R45, R46). -/
def execRxInfoRead (s : State) : Host.Outcome State Fault Refusal :=
  .next (busReturn (rxInfoValue s) s)

/-- RX_RIDX_READ (40_host_access.md R180; 10_state.md R48). -/
def execRxRidxRead (s : State) : Host.Outcome State Fault Refusal :=
  .next (busReturn (s.slot.ridx.setWidth 32) s)

/-- TAG_HDR_READ (40_host_access.md R180; 10_state.md R49). -/
def execTagHdrRead (s : State) : Host.Outcome State Fault Refusal :=
  .next (busReturn (tagHdrValue s) s)

/-- TAG_RSSI_READ (40_host_access.md R180; 10_state.md R50). -/
def execTagRssiRead (s : State) : Host.Outcome State Fault Refusal :=
  .next (busReturn (tagRssiValue s) s)

/-- LEVELS_READ (40_host_access.md R180; 10_state.md R52). -/
def execLevelsRead (s : State) : Host.Outcome State Fault Refusal :=
  .next (busReturn (levelsValue s) s)

/-- CNT_RXDROP_READ (40_host_access.md R180; 10_state.md R53). -/
def execCntRxdropRead (s : State) : Host.Outcome State Fault Refusal :=
  .next (busReturn s.cntRxdrop s)

/-- CNT_FRAMES_READ (40_host_access.md R180; 10_state.md R53). -/
def execCntFramesRead (s : State) : Host.Outcome State Fault Refusal :=
  .next (busReturn s.cntFrames s)

/-- CNT_TAGS_READ (40_host_access.md R180; 10_state.md R53). -/
def execCntTagsRead (s : State) : Host.Outcome State Fault Refusal :=
  .next (busReturn s.cntTags s)

/-- CFG0_READ (40_host_access.md R180; 10_state.md R54). -/
def execCfg0Read (s : State) : Host.Outcome State Fault Refusal :=
  .next (busReturn (cfg0Value s) s)

/-- CFG1_READ (40_host_access.md R180; 10_state.md R54). -/
def execCfg1Read (s : State) : Host.Outcome State Fault Refusal :=
  .next (busReturn (cfg1Value s) s)

/-- TAG_EPC_READ, the register TAG_EPCk (40_host_access.md R180; 10_state.md R51). -/
def execTagEpcRead (k : BitVec 4) (s : State) : Host.Outcome State Fault Refusal :=
  .next (busReturn (tagEpcValue k s) s)

/-- RX_DATA_READ (42_rx_framer.md R261): the one read with a side effect (20_memory.md R107). -/
def execRxDataRead (s : State) : Host.Outcome State Fault Refusal :=
  .next (rxDataRead s)

/-- UNMAPPED_OR_WO_READ (40_host_access.md R180; 10_state.md R55): returns 0. -/
def execUnmappedOrWoRead (_off : Byte) (s : State) : Host.Outcome State Fault Refusal :=
  .next (busReturn 0x00000000#32 s)

end Sys2Proof.Machine
end

