-- ==== Sys2Proof/Machine/HostWrites.lean ====
section
/-! DEFINITION. The meanings of the host writes (40_host_access.md R181 to R190, 41_tx_framer.md R220, R221). -/

namespace Sys2Proof.Machine

/-- CTRL_WRITE (40_host_access.md R182, R193). -/
def execCtrlWrite (v : Word) (s : State) : Host.Outcome State Fault Refusal :=
  .next (ctrlWrite v s)

/-- STATUS_W1C (40_host_access.md R186). -/
def execStatusW1c (v : Word) (s : State) : Host.Outcome State Fault Refusal :=
  .next (clearSticky v s)

/-- IE_WRITE (40_host_access.md R184). -/
def execIeWrite (v : Word) (s : State) : Host.Outcome State Fault Refusal :=
  .next (setIe (v &&& ieMask) s)

/-- CMD_WRITE (40_host_access.md R189, R190). -/
def execCmdWrite (v : Word) (s : State) : Host.Outcome State Fault Refusal :=
  .next (cmdWrite v s)

/-- TX_OPCODE_WRITE (41_tx_framer.md R220). -/
def execTxOpcodeWrite (v : Word) (s : State) : Host.Outcome State Fault Refusal :=
  .next (txOpcodeWrite v s)

/-- TX_DATA_WRITE (41_tx_framer.md R221). -/
def execTxDataWrite (v : Word) (s : State) : Host.Outcome State Fault Refusal :=
  .next (txDataWrite v s)

/-- EXP_OPCODE_WRITE (40_host_access.md R185). -/
def execExpOpcodeWrite (v : Word) (s : State) : Host.Outcome State Fault Refusal :=
  .next (setExpOpcode (v.setWidth 8) s)

/-- RO_OR_UNMAPPED_WRITE (40_host_access.md R187): no effect. -/
def execRoOrUnmappedWrite (_off : Byte) (_v : Word) (s : State) : Host.Outcome State Fault Refusal :=
  .next s

end Sys2Proof.Machine
end

