-- ==== Sys2Proof/Machine/WireAcks.lean ====
section
/-! DEFINITION. The meanings of the response frames: the reader's frame arrives at the UART receive side (44_commands.md R350, R362; log 8). -/

namespace Sys2Proof.Machine

/-- SET_POWER_ACK (44_commands.md R350, R362): the frame `encode(ack opcode, params)` arrives, one RxByte a byte (42_rx_framer.md R250). -/
def execSetPowerAck (params : List Byte) (s : State) : Host.Outcome State Fault Refusal :=
  .next (rxResponse opSetPower params s)

/-- GET_POWER_ACK (44_commands.md R350, R362): the frame `encode(ack opcode, params)` arrives, one RxByte a byte (42_rx_framer.md R250). -/
def execGetPowerAck (params : List Byte) (s : State) : Host.Outcome State Fault Refusal :=
  .next (rxResponse opGetPower params s)

/-- SET_ANTENNA_ACK (44_commands.md R350, R362): the frame `encode(ack opcode, params)` arrives, one RxByte a byte (42_rx_framer.md R250). -/
def execSetAntennaAck (params : List Byte) (s : State) : Host.Outcome State Fault Refusal :=
  .next (rxResponse opSetAntenna params s)

/-- GET_ANTENNA_ACK (44_commands.md R350, R362): the frame `encode(ack opcode, params)` arrives, one RxByte a byte (42_rx_framer.md R250). -/
def execGetAntennaAck (params : List Byte) (s : State) : Host.Outcome State Fault Refusal :=
  .next (rxResponse opGetAntenna params s)

/-- SET_RF_MODE_ACK (44_commands.md R350, R362): the frame `encode(ack opcode, params)` arrives, one RxByte a byte (42_rx_framer.md R250). -/
def execSetRfModeAck (params : List Byte) (s : State) : Host.Outcome State Fault Refusal :=
  .next (rxResponse opSetRfMode params s)

/-- GET_RF_MODE_ACK (44_commands.md R350, R362): the frame `encode(ack opcode, params)` arrives, one RxByte a byte (42_rx_framer.md R250). -/
def execGetRfModeAck (params : List Byte) (s : State) : Host.Outcome State Fault Refusal :=
  .next (rxResponse opGetRfMode params s)

/-- SET_DWELL_ACK (44_commands.md R350, R362): the frame `encode(ack opcode, params)` arrives, one RxByte a byte (42_rx_framer.md R250). -/
def execSetDwellAck (params : List Byte) (s : State) : Host.Outcome State Fault Refusal :=
  .next (rxResponse opSetDwell params s)

/-- GET_DWELL_ACK (44_commands.md R350, R362): the frame `encode(ack opcode, params)` arrives, one RxByte a byte (42_rx_framer.md R250). -/
def execGetDwellAck (params : List Byte) (s : State) : Host.Outcome State Fault Refusal :=
  .next (rxResponse opGetDwell params s)

/-- INVENTORY_START_ACK (44_commands.md R350, R362): the frame `encode(ack opcode, params)` arrives, one RxByte a byte (42_rx_framer.md R250). -/
def execInventoryStartAck (params : List Byte) (s : State) : Host.Outcome State Fault Refusal :=
  .next (rxResponse opInventoryStart params s)

/-- INVENTORY_STOP_ACK (44_commands.md R350, R362): the frame `encode(ack opcode, params)` arrives, one RxByte a byte (42_rx_framer.md R250). -/
def execInventoryStopAck (params : List Byte) (s : State) : Host.Outcome State Fault Refusal :=
  .next (rxResponse opInventoryStop params s)

/-- SOFTWARE_RESET_ACK (44_commands.md R350, R362): the frame `encode(ack opcode, params)` arrives, one RxByte a byte (42_rx_framer.md R250). -/
def execSoftwareResetAck (params : List Byte) (s : State) : Host.Outcome State Fault Refusal :=
  .next (rxResponse s.cfg.swResetOpcode params s)

end Sys2Proof.Machine
end

