-- ==== Sys2Proof/Machine/WireRequests.lean ====
section
/-! DEFINITION. The meanings of the request frames: the host composes and sends the command (44_commands.md R351 to R361; log 7). -/

namespace Sys2Proof.Machine

/-- SET_POWER (44_commands.md R351): its composition `send 0x10, [nvm, power, power]` (30_encoding.md R146). R351 fills both power fields with one value; they are two operands here (log 14). -/
def execSetPower (nvm power1 power2 : Half) (s : State) : Host.Outcome State Fault Refusal :=
  .next (hostSend opSetPower (setPowerParams nvm power1 power2) s)

/-- GET_POWER (44_commands.md R352): its composition `send 0x12, []` (30_encoding.md R146). -/
def execGetPower (s : State) : Host.Outcome State Fault Refusal :=
  .next (hostSend opGetPower [] s)

/-- SET_ANTENNA (44_commands.md R353): its composition `send 0x28, [reserved, mask]` (30_encoding.md R146). -/
def execSetAntenna (rsv : Half) (mask : Byte) (s : State) : Host.Outcome State Fault Refusal :=
  .next (hostSend opSetAntenna (setAntennaParams rsv mask) s)

/-- GET_ANTENNA (44_commands.md R354): its composition `send 0x2A, []` (30_encoding.md R146). -/
def execGetAntenna (s : State) : Host.Outcome State Fault Refusal :=
  .next (hostSend opGetAntenna [] s)

/-- SET_RF_MODE (44_commands.md R355): its composition `send 0x52, [nvm, mode]` (30_encoding.md R146). No range is checked (41_tx_framer.md R230; log 25). -/
def execSetRfMode (nvm : Half) (mode : Byte) (s : State) : Host.Outcome State Fault Refusal :=
  .next (hostSend opSetRfMode (setRfModeParams nvm mode) s)

/-- GET_RF_MODE (44_commands.md R356): its composition `send 0x54, [reserved]` (30_encoding.md R146). -/
def execGetRfMode (rsv : Half) (s : State) : Host.Outcome State Fault Refusal :=
  .next (hostSend opGetRfMode (getRfModeParams rsv) s)

/-- SET_DWELL (44_commands.md R357): its composition `send 0x3C, [nvm, work, wait]` (30_encoding.md R146). -/
def execSetDwell (nvm : Byte) (work wait : Half) (s : State) : Host.Outcome State Fault Refusal :=
  .next (hostSend opSetDwell (setDwellParams nvm work wait) s)

/-- GET_DWELL (44_commands.md R358): its composition `send 0x3E, []` (30_encoding.md R146). -/
def execGetDwell (s : State) : Host.Outcome State Fault Refusal :=
  .next (hostSend opGetDwell [] s)

/-- INVENTORY_START (44_commands.md R359): its composition `send 0x82, [cycles]` (30_encoding.md R146). -/
def execInventoryStart (cycles : Half) (s : State) : Host.Outcome State Fault Refusal :=
  .next (hostSend opInventoryStart (inventoryStartParams cycles) s)

/-- INVENTORY_STOP (44_commands.md R361): its composition `send 0x8C, []` (30_encoding.md R146). -/
def execInventoryStop (s : State) : Host.Outcome State Fault Refusal :=
  .next (hostSend opInventoryStop [] s)

/-- SOFTWARE_RESET (44_commands.md R360): its composition `send SW_RESET_OPCODE, []` (30_encoding.md R146). R360 composes it without parameters, an assumption of the spec (93_implementation_defined.md I3; log 13). -/
def execSoftwareReset (s : State) : Host.Outcome State Fault Refusal :=
  .next (hostSend s.cfg.swResetOpcode [] s)

end Sys2Proof.Machine
end

