-- ==== Sys2Proof/Machine/Dispatch.lean ====
section
/-! DEFINITION. One arm per instruction: its meaning. -/

namespace Sys2Proof.Machine

-- The meaning of each instruction of spec/opcode_table.json.
def exec (i : Instr) (s : State) : Host.Outcome State Fault Refusal :=
  match i with
  | .setPower nvm power1 power2 => Sys2Proof.Machine.execSetPower nvm power1 power2 s
  | .getPower => Sys2Proof.Machine.execGetPower s
  | .setAntenna rsv mask => Sys2Proof.Machine.execSetAntenna rsv mask s
  | .getAntenna => Sys2Proof.Machine.execGetAntenna s
  | .setRfMode nvm mode => Sys2Proof.Machine.execSetRfMode nvm mode s
  | .getRfMode rsv => Sys2Proof.Machine.execGetRfMode rsv s
  | .setDwell nvm work wait => Sys2Proof.Machine.execSetDwell nvm work wait s
  | .getDwell => Sys2Proof.Machine.execGetDwell s
  | .inventoryStart cycles => Sys2Proof.Machine.execInventoryStart cycles s
  | .inventoryStop => Sys2Proof.Machine.execInventoryStop s
  | .softwareReset => Sys2Proof.Machine.execSoftwareReset s
  | .setPowerAck params => Sys2Proof.Machine.execSetPowerAck params s
  | .getPowerAck params => Sys2Proof.Machine.execGetPowerAck params s
  | .setAntennaAck params => Sys2Proof.Machine.execSetAntennaAck params s
  | .getAntennaAck params => Sys2Proof.Machine.execGetAntennaAck params s
  | .setRfModeAck params => Sys2Proof.Machine.execSetRfModeAck params s
  | .getRfModeAck params => Sys2Proof.Machine.execGetRfModeAck params s
  | .setDwellAck params => Sys2Proof.Machine.execSetDwellAck params s
  | .getDwellAck params => Sys2Proof.Machine.execGetDwellAck params s
  | .inventoryStartAck params => Sys2Proof.Machine.execInventoryStartAck params s
  | .inventoryStopAck params => Sys2Proof.Machine.execInventoryStopAck params s
  | .softwareResetAck params => Sys2Proof.Machine.execSoftwareResetAck params s
  | .tagRecord pc epc rssi ant => Sys2Proof.Machine.execTagRecord pc epc rssi ant s
  | .txSend => Sys2Proof.Machine.execTxSend s
  | .txClr => Sys2Proof.Machine.execTxClr s
  | .rxPop => Sys2Proof.Machine.execRxPop s
  | .rxFlush => Sys2Proof.Machine.execRxFlush s
  | .tagPop => Sys2Proof.Machine.execTagPop s
  | .tagEnd => Sys2Proof.Machine.execTagEnd s
  | .tagFlush => Sys2Proof.Machine.execTagFlush s
  | .cntClr => Sys2Proof.Machine.execCntClr s
  | .blkReset => Sys2Proof.Machine.execBlkReset s
  | .ctrlWrite v => Sys2Proof.Machine.execCtrlWrite v s
  | .statusW1c v => Sys2Proof.Machine.execStatusW1c v s
  | .ieWrite v => Sys2Proof.Machine.execIeWrite v s
  | .cmdWrite v => Sys2Proof.Machine.execCmdWrite v s
  | .txOpcodeWrite v => Sys2Proof.Machine.execTxOpcodeWrite v s
  | .txDataWrite v => Sys2Proof.Machine.execTxDataWrite v s
  | .expOpcodeWrite v => Sys2Proof.Machine.execExpOpcodeWrite v s
  | .roOrUnmappedWrite off v => Sys2Proof.Machine.execRoOrUnmappedWrite off v s
  | .ctrlRead => Sys2Proof.Machine.execCtrlRead s
  | .statusRead => Sys2Proof.Machine.execStatusRead s
  | .ieRead => Sys2Proof.Machine.execIeRead s
  | .txOpcodeRead => Sys2Proof.Machine.execTxOpcodeRead s
  | .txPlenRead => Sys2Proof.Machine.execTxPlenRead s
  | .expOpcodeRead => Sys2Proof.Machine.execExpOpcodeRead s
  | .rxHdrRead => Sys2Proof.Machine.execRxHdrRead s
  | .rxInfoRead => Sys2Proof.Machine.execRxInfoRead s
  | .rxRidxRead => Sys2Proof.Machine.execRxRidxRead s
  | .tagHdrRead => Sys2Proof.Machine.execTagHdrRead s
  | .tagRssiRead => Sys2Proof.Machine.execTagRssiRead s
  | .levelsRead => Sys2Proof.Machine.execLevelsRead s
  | .cntRxdropRead => Sys2Proof.Machine.execCntRxdropRead s
  | .cntFramesRead => Sys2Proof.Machine.execCntFramesRead s
  | .cntTagsRead => Sys2Proof.Machine.execCntTagsRead s
  | .cfg0Read => Sys2Proof.Machine.execCfg0Read s
  | .cfg1Read => Sys2Proof.Machine.execCfg1Read s
  | .tagEpcRead k => Sys2Proof.Machine.execTagEpcRead k s
  | .rxDataRead => Sys2Proof.Machine.execRxDataRead s
  | .unmappedOrWoRead off => Sys2Proof.Machine.execUnmappedOrWoRead off s
  | .rxByte b => Sys2Proof.Machine.execRxByte b s
  | .tagFeed b => Sys2Proof.Machine.execTagFeed b s
  | .rxLineError => Sys2Proof.Machine.execRxLineError s
  | .txAccept => Sys2Proof.Machine.execTxAccept s
  | .delinStep => Sys2Proof.Machine.execDelinStep s
  | .tagStep => Sys2Proof.Machine.execTagStep s
  | .hardReset => Sys2Proof.Machine.execHardReset s

end Sys2Proof.Machine
end

