-- ==== Sys2Proof/Machine/Schedule.lean ====
section
/-! DEFINITION. How an entry of the schedule is run, what is run where the schedule is empty, and which instruction a step takes
(00_scope.md R10; log 1, log 2). -/

namespace Sys2Proof.Machine

/-- The stop for an entry that encodes no instruction (log 17, log 18). -/
def stopFor (e : DecodeError) : Host.Outcome State Fault Refusal :=
  match e with
  | .narrowAccess => .refused .narrowAccess
  | .emptyEntry => .fault (.undecodable .emptyEntry)
  | .unknownKind => .fault (.undecodable .unknownKind)
  | .badEntryLength => .fault (.undecodable .badEntryLength)
  | .badAccessSize => .fault (.undecodable .badAccessSize)
  | .badSof => .fault (.undecodable .badSof)
  | .badLength => .fault (.undecodable .badLength)
  | .badChecksum => .fault (.undecodable .badChecksum)
  | .badEof => .fault (.undecodable .badEof)
  | .unknownOpcode => .fault (.undecodable .unknownOpcode)
  | .badParams => .fault (.undecodable .badParams)

/-- Run an entry at RLF's own interface: what it decodes to, or a stop. -/
def runRlfEntry (m : List Byte) (s : State) : Host.Outcome State Fault Refusal :=
  match decode s.cfg.swResetOpcode m with
  | .ok i => exec i s
  | .error e => stopFor e

/-- Run an entry of the schedule, the host's addresses decoded by the platform first (20_memory.md R101); an access outside the register
window is not RLF's and leaves RLF as it is (log 22). -/
def runEntry (m : List Byte) (s : State) : Host.Outcome State Fault Refusal :=
  match route s.cfg.rlfBase m with
  | .rlf e => runRlfEntry e s
  | .elsewhere => .next s
  | .malformed => stopFor .badEntryLength

/-- The free choice's step; where it names none, no agent moves (log 2). -/
def runFreeChoice (s : State) : Host.Outcome State Fault Refusal :=
  match freeChoice s with
  | some i => exec i (countChoice s)
  | none => .next (countChoice s)

/-- The instruction an entry runs, if any. -/
def entryInstr (c : Params) (m : List Byte) : Option Instr :=
  match route c.rlfBase m with
  | .rlf e =>
    match decode c.swResetOpcode e with
    | .ok i => some i
    | .error _ => none
  | .elsewhere => none
  | .malformed => none

/-- The instruction the next step of `s` runs, if it runs one. -/
def nextInstr (s : State) : Option Instr :=
  match s.pending with
  | m :: _ => entryInstr s.cfg m
  | [] => freeChoice s

end Sys2Proof.Machine
end

