-- ==== Sys2Proof/Machine/Step.lean ====
section
/-! DEFINITION. One step of RLF: the next entry of the schedule is fetched, decoded and run; where the schedule is empty the agents'
choice is a free value (00_scope.md R10; log 1, log 2). -/

namespace Sys2Proof.Machine

/-- One step of one agent (00_scope.md R10). -/
def step (s : State) : Host.Outcome State Fault Refusal :=
  match s.pending with
  | m :: _ => runEntry m (dropPending s)
  | [] => runFreeChoice s

/-- The window the tag engine needs to find TAG_RECORD's bytes at its scan position (10_state.md R59): those bytes for the number of
the tag-record row, the window as it is for any other (log 4). -/
def windowFor (s : State) (nbits w : Nat) : List Byte := if isTagNumber nbits w then zeroTagSpan else s.win

/-- `s` with the instruction of the table's number `w` of `nbits` bits as the next entry of the schedule, and, for TAG_RECORD, its bytes
in the tag window (log 4, log 5). -/
def State.withFetchWord (s : State) (nbits w : Nat) : State :=
  { s with pending := entryOfTableWord nbits w :: s.pending, win := windowFor s nbits w }

end Sys2Proof.Machine
end

