-- ==== Sys2Proof/Machine/HostPrograms.lean ====
section
/-! DEFINITION. The pseudo-instructions of 30_encoding.md R146 as lists of host accesses, and the host's decision in `endburst`. They are
notation, not steps (log 27). -/

namespace Sys2Proof.Machine

/-- Run instructions one after another, with nothing between them. -/
def execAll : List Instr → State → Host.Outcome State Fault Refusal
  | [], s => .next s
  | i :: rest, s =>
    match exec i s with
    | .next t => execAll rest t
    | .fault r => .fault r
    | .refused r => .refused r

/-- The accesses of `send OP, [p0, ..., pn-1]` when the poll succeeds at its first read (R146). -/
def sendAccesses (op : Byte) (p : List Byte) : List Instr :=
  .statusRead :: .txClr :: .txOpcodeWrite (op.setWidth 32) :: p.map (fun b => .txDataWrite (b.setWidth 32)) ++ [.txSend]

/-- The accesses of `recv` when the poll succeeds at its first read and RX_INFO reads `n` PARAMS bytes (R146). -/
def recvAccesses (n : Nat) : List Instr :=
  .statusRead :: .rxHdrRead :: .rxInfoRead :: List.replicate n .rxDataRead ++ [.rxPop]

/-- The number of TAG_EPC registers `tagpop` reads: ceil(len / 4) (R146). -/
def epcRegisters (len : Nat) : Nat := (len + 3) / 4

/-- The accesses of `tagpop` when the poll succeeds at its first read and TAG_HDR reads EPC_LEN `len` (R146). -/
def tagpopAccesses (len : Nat) : List Instr :=
  .statusRead :: .tagHdrRead :: .tagRssiRead ::
    (List.range (epcRegisters len)).map (fun k => .tagEpcRead (BitVec.ofNat 4 k)) ++ [.tagPop]

/-- What the host does next in the loop of `endburst` after reading `status` (R146, 70_reset_and_hazards.md R455). -/
inductive EndburstNext where
  | popRecord
  | readAgain
  | leave
  deriving DecidableEq, Repr

/-- The loop of `endburst`: pop while TAG_VALID, read again while TAG_BUSY, else leave (R146). -/
def endburstNext (status : Word) : EndburstNext :=
  if status.getLsbD 2 then .popRecord else if status.getLsbD 3 then .readAgain else .leave

end Sys2Proof.Machine
end

