-- ==== Sys2Proof/Machine/Runs.lean ====
section
/-! DEFINITION. Runs of the machine and the progress assumption of 00_scope.md R11. -/

namespace Sys2Proof.Machine

/-- An unending run: each state is what `step` answers from the one before. -/
def IsRun (run : Nat → State) : Prop := ∀ n, step (run n) = .next (run (n + 1))

/-- The instruction `i`, taken in `s`, is a step of the engine `e`. A TagStep on a record is also taken by the row TAG_RECORD of that record
(43_tag_parser.md R305; log 9). -/
def IsStepOf (e : Engine) (i : Instr) (s : State) : Prop :=
  i = engineInstr e ∨
    (e = .tagParser ∧ ∃ pc epc rssi ant, i = .tagRecord pc epc rssi ant ∧
      tclass s.win s.ending = .record { pc := pc, epcLen := epcLength pc, epc := epc, rssi := rssi, ant := ant })

/-- The step from `s` is one of the engine `e`. -/
def Takes (e : Engine) (s : State) : Prop := ∃ i, nextInstr s = some i ∧ IsStepOf e i s

/-- Weak fairness (00_scope.md R11): an internal step that stays enabled is eventually taken. -/
def WeaklyFair (run : Nat → State) : Prop :=
  ∀ (e : Engine) (n : Nat), (∀ k, n ≤ k → engineEnabled e (run k) = true) → ∃ k, n ≤ k ∧ Takes e (run k)

end Sys2Proof.Machine
end

