-- ==== Sys2Proof/Safety.lean ====
section
/-! DEFINITION. What counts as a safe state and a safe command: the invariants of 10_state.md R64 and the host's argument checks of
44_commands.md R371. -/

namespace Sys2Proof.Machine

/-- A record of TAGQ holds what its PC word declares (10_state.md R64). -/
abbrev TagRecord.Consistent (r : TagRecord) : Prop := r.epcLen = epcLength r.pc ∧ r.epc.length = r.epcLen

/-- The slot's relations (10_state.md R64), for a buffer of `rxpDepth` bytes. -/
abbrev Slot.Consistent (rxpDepth : Nat) (t : Slot) : Prop :=
  t.pbuf.length ≤ rxpDepth ∧
  (t.valid = false → t = Slot.empty) ∧
  (t.valid = true →
    t.len.toNat = t.pbuf.length + 8 ∧ t.chkOk = (t.computed == t.chk) ∧ t.ridx.toNat ≤ t.pbuf.length)

/-- TX_BUSY is 1 exactly while bytes of TX_FRAME remain, and TX_IDX stays in the frame (10_state.md R56, R64). -/
abbrev TxConsistent (s : State) : Prop :=
  (s.txBusy = true ↔ s.txIdx < s.txFrame.length) ∧ s.txIdx ≤ s.txFrame.length

/-- The buffers stay within their depths (10_state.md R64). -/
abbrev WithinDepths (s : State) : Prop :=
  s.txbuf.length ≤ s.cfg.txpDepth ∧ s.rxq.length ≤ s.cfg.rxqDepth ∧ s.win.length ≤ s.cfg.tagwDepth ∧
  s.tagq.length ≤ s.cfg.tagqDepth

/-- SKIP is 0..3, and while it is not 0 the window is empty (10_state.md R60, R64). -/
abbrev SkipConsistent (s : State) : Prop := s.skip ≤ 3 ∧ (0 < s.skip → s.win = [])

/-- Reserved bits of CTRL, STATUS and IE are 0 (10_state.md R34, R36, R37, R55). -/
abbrev ReservedZero (s : State) : Prop :=
  s.ctrl &&& ~~~0x0000000F#32 = 0x00000000#32 ∧ s.sticky &&& ~~~stickyMask = 0x00000000#32 ∧
  s.ie &&& ~~~ieMask = 0x00000000#32

/-- TAG_EN is 0 while an end of burst runs (40_host_access.md R193, 43_tag_parser.md R310). -/
abbrev EndingClosesIntake (s : State) : Prop := s.ending = true → tagEn s = false

/-- The invariants of 10_state.md R64, with the parameters' constraints of 00_scope.md R8, the reserved bits of R55 and R193. -/
abbrev Inv (s : State) : Prop :=
  s.cfg.Valid ∧ TxConsistent s ∧ WithinDepths s ∧ s.slot.Consistent s.cfg.rxpDepth ∧ SkipConsistent s ∧
  (∀ r ∈ s.tagq, r.Consistent) ∧ ReservedZero s ∧ EndingClosesIntake s

/-- A power the host may send, in hundredths of a dBm: 1.0 to 30.0 dBm (44_commands.md R371). -/
def powerInRange (hundredths : Int) : Bool := decide (100 ≤ hundredths) && decide (hundredths ≤ 3000)

/-- The host's argument check of a request (44_commands.md R371); RLF makes none (41_tx_framer.md R230; log 25). DWELL_RANGE is open,
antenna masks have no check, and a cycle count of 0 is the continuous inventory. Every other instruction has no argument to check. -/
def hostArgsValid : Instr → Bool
  | .setPower _ power1 power2 => powerInRange (rawToHundredths power1) && powerInRange (rawToHundredths power2)
  | .setRfMode _ mode => mode.ult 4#8
  | .setDwell _ work wait => Config.dwellRange work && Config.dwellRange wait
  | .getPower => true
  | .setAntenna _ _ => true
  | .getAntenna => true
  | .getRfMode _ => true
  | .getDwell => true
  | .inventoryStart _ => true
  | .inventoryStop => true
  | .softwareReset => true
  | .setPowerAck _ => true
  | .getPowerAck _ => true
  | .setAntennaAck _ => true
  | .getAntennaAck _ => true
  | .setRfModeAck _ => true
  | .getRfModeAck _ => true
  | .setDwellAck _ => true
  | .getDwellAck _ => true
  | .inventoryStartAck _ => true
  | .inventoryStopAck _ => true
  | .softwareResetAck _ => true
  | .tagRecord _ _ _ _ => true
  | .txSend => true
  | .txClr => true
  | .rxPop => true
  | .rxFlush => true
  | .tagPop => true
  | .tagEnd => true
  | .tagFlush => true
  | .cntClr => true
  | .blkReset => true
  | .ctrlWrite _ => true
  | .statusW1c _ => true
  | .ieWrite _ => true
  | .cmdWrite _ => true
  | .txOpcodeWrite _ => true
  | .txDataWrite _ => true
  | .expOpcodeWrite _ => true
  | .roOrUnmappedWrite _ _ => true
  | .ctrlRead => true
  | .statusRead => true
  | .ieRead => true
  | .txOpcodeRead => true
  | .txPlenRead => true
  | .expOpcodeRead => true
  | .rxHdrRead => true
  | .rxInfoRead => true
  | .rxRidxRead => true
  | .tagHdrRead => true
  | .tagRssiRead => true
  | .levelsRead => true
  | .cntRxdropRead => true
  | .cntFramesRead => true
  | .cntTagsRead => true
  | .cfg0Read => true
  | .cfg1Read => true
  | .tagEpcRead _ => true
  | .rxDataRead => true
  | .unmappedOrWoRead _ => true
  | .rxByte _ => true
  | .tagFeed _ => true
  | .rxLineError => true
  | .txAccept => true
  | .delinStep => true
  | .tagStep => true
  | .hardReset => true

end Sys2Proof.Machine
end

