-- ==== Sys2Proof/Certificates/Slice0/Obligations.lean ====
section
/-! DEFINITION. The statements for the provers. Helper definitions stand under Sys2Proof.Statements; each obligation names the rules it
formalises. A record update `{ s with … }` in a conclusion is also the frame: every field not named keeps its value. -/

namespace Sys2Proof.Statements

open Sys2Proof.Machine

/-- RLF's own state in `t` has the values of the reset table of 10_state.md R63, TXWIRE apart. -/
def ResetValues (t : State) : Prop :=
  t.ctrl = 0x0000000C#32 ∧ t.sticky = 0x00000000#32 ∧ statusValue t = 0x00000000#32 ∧ t.ie = 0x00000000#32 ∧
  t.txOpcode = 0x00#8 ∧ t.txbuf = [] ∧ t.txFrame = [] ∧ t.txIdx = 0 ∧ t.txBusy = false ∧ t.expOpcode = 0x00#8 ∧
  t.rxq = [] ∧
  t.slot = { valid := false, opcode := 0x00#8, len := 0x0000#16, pbuf := [], chk := 0x00#8, computed := 0x00#8,
             chkOk := false, eofOk := false, ridx := 0x0000#16 } ∧
  t.win = [] ∧ t.skip = 0 ∧ t.ending = false ∧ t.tagq = [] ∧
  t.cntRxdrop = 0x00000000#32 ∧ t.cntFrames = 0x00000000#32 ∧ t.cntTags = 0x00000000#32 ∧ irq t = false

/-- The state after `send op, p` from a state with TX_BUSY = 0 (30_encoding.md R146, 41_tx_framer.md R223). -/
def afterSend (op : Byte) (p : List Byte) (s : State) : State :=
  { s with
    rdata := statusValue s
    txOpcode := op
    txbuf := p
    txFrame := frameEncode op p
    txIdx := 0
    txBusy := true
    expOpcode := op + 1#8 }

/-- Every request with its opcode and its PARAMS (30_encoding.md R142, 44_commands.md R351 to R361); `sw` is SW_RESET_OPCODE. -/
def requestTable (sw : Byte) (x y z : Half) (m : Byte) : List (Instr × Byte × List Byte) :=
  [(.setPower x y z, 0x10#8, [hi8 x, lo8 x, hi8 y, lo8 y, hi8 z, lo8 z]),
   (.getPower, 0x12#8, []),
   (.setAntenna x m, 0x28#8, [hi8 x, lo8 x, m]),
   (.getAntenna, 0x2A#8, []),
   (.setRfMode x m, 0x52#8, [hi8 x, lo8 x, m]),
   (.getRfMode x, 0x54#8, [hi8 x, lo8 x]),
   (.setDwell m x y, 0x3C#8, [m, hi8 x, lo8 x, hi8 y, lo8 y]),
   (.getDwell, 0x3E#8, []),
   (.inventoryStart x, 0x82#8, [hi8 x, lo8 x]),
   (.inventoryStop, 0x8C#8, []),
   (.softwareReset, sw, [])]

/-- Every ack with its opcode (30_encoding.md R142); `sw` is SW_RESET_OPCODE. -/
def ackTable (sw : Byte) (p : List Byte) : List (Instr × Byte) :=
  [(.setPowerAck p, 0x11#8), (.getPowerAck p, 0x13#8), (.setAntennaAck p, 0x29#8), (.getAntennaAck p, 0x2B#8),
   (.setRfModeAck p, 0x53#8), (.getRfModeAck p, 0x55#8), (.setDwellAck p, 0x3D#8), (.getDwellAck p, 0x3F#8),
   (.inventoryStartAck p, 0x83#8), (.inventoryStopAck p, 0x8D#8), (.softwareResetAck p, sw + 1#8)]

/-- The commands of CMD in the order a CMD write runs them, each with its bit (40_host_access.md R189). -/
def commandOrder : List (Nat × Instr) :=
  [(3, .rxFlush), (2, .rxPop), (6, .tagFlush), (4, .tagPop), (5, .tagEnd), (1, .txClr), (0, .txSend), (7, .cntClr)]

/-- The commands a CMD word without bit 31 holds, in that order. -/
def commandsOf (v : Word) : List Instr := (commandOrder.filter (fun c => v.getLsbD c.1)).map Prod.snd

/-- An instruction that is neither HARD_RESET nor a block reset, alone or in a CMD write. -/
def NoReset (i : Instr) : Prop :=
  i ≠ .hardReset ∧ i ≠ .blkReset ∧ ∀ v, i = .cmdWrite v → v.getLsbD 31 = false

/-- The instructions that raise CMD_ERR, and when (40_host_access.md R188; a CMD write by the order of R189). -/
def cmdErrCause (i : Instr) (s : State) : Bool :=
  match i with
  | .txOpcodeWrite _ => s.txBusy
  | .txDataWrite _ => s.txBusy
  | .txClr => s.txBusy
  | .txSend => s.txBusy
  | .tagEnd => s.ending
  | .ctrlWrite v => v.getLsbD 1 && s.ending
  | .cmdWrite v =>
    !(v.getLsbD 31) && ((s.txBusy && (v.getLsbD 0 || v.getLsbD 1)) || (s.ending && v.getLsbD 5 && !(v.getLsbD 6)))
  | _ => false

/-- The steps and registers of the TX engine (41_tx_framer.md R228). -/
def IsTxStep (i : Instr) : Prop :=
  i = .txSend ∨ i = .txClr ∨ i = .txAccept ∨ (∃ v, i = .txOpcodeWrite v) ∨ ∃ v, i = .txDataWrite v

/-- Two states agree on everything the TX engine holds. -/
def SameTx (s t : State) : Prop :=
  s.cfg = t.cfg ∧ s.txOpcode = t.txOpcode ∧ s.expOpcode = t.expOpcode ∧ s.txbuf = t.txbuf ∧ s.txFrame = t.txFrame ∧
  s.txIdx = t.txIdx ∧ s.txBusy = t.txBusy ∧ s.txwire = t.txwire

/-- Two states agree on RXQ, the slot, the tag parser state and CTRL. -/
def SameRx (s t : State) : Prop :=
  s.ctrl = t.ctrl ∧ s.rxq = t.rxq ∧ s.slot = t.slot ∧ s.win = t.win ∧ s.skip = t.skip ∧ s.ending = t.ending ∧
  s.tagq = t.tagq ∧ s.cntRxdrop = t.cntRxdrop ∧ s.cntFrames = t.cntFrames ∧ s.cntTags = t.cntTags

/-- The bytes of the RX_BYTE steps of a list of instructions, in order. -/
def receivedBytes (l : List Instr) : List Byte :=
  l.filterMap (fun i => match i with | .rxByte b => some b | _ => none)

/-- The events of a complete candidate as STATUS bits (42_rx_framer.md R257). -/
def checkEvents (chkOk eofOk : Bool) : Word :=
  (if chkOk then 0x00000000#32 else 0x00000800#32) ||| (if eofOk then 0x00000000#32 else 0x00001000#32)

/-- What `classify` makes of the head of RXQ in `s` (42_rx_framer.md R251, R253). -/
def headClass (s : State) : Classified := classify s.cfg.maxFrame (s.ctrl.getLsbD 2) (s.ctrl.getLsbD 3) s.rxq

/-- LENGTH at the head of `q`. -/
def headLength (q : List Byte) : Nat := (be16 (q.getD 2 0#8) (q.getD 3 0#8)).toNat

/-- `q` starts with a whole candidate: SOF, a LENGTH from 8 to MAX_FRAME, and that many bytes (42_rx_framer.md R251). -/
def Complete (maxFrame : Nat) (q : List Byte) : Prop :=
  4 ≤ q.length ∧ q.getD 0 0#8 = 0xA5#8 ∧ q.getD 1 0#8 = 0x5A#8 ∧ 8 ≤ headLength q ∧ headLength q ≤ maxFrame ∧
  headLength q ≤ q.length

/-- The checksum computed over `f[2..L-4]` (42_rx_framer.md R256). -/
def calcOf (f : List Byte) : Byte := xor8 ((f.drop 2).take (f.length - 5))

/-- The checksum test of a candidate (42_rx_framer.md R256). -/
def chkOf (f : List Byte) : Bool := calcOf f == f.getD (f.length - 3) 0#8

/-- The EOF test of a candidate (42_rx_framer.md R256). -/
def eofOf (f : List Byte) : Bool := f.getD (f.length - 2) 0#8 == 0x0D#8 && f.getD (f.length - 1) 0#8 == 0x0A#8

/-- The PC word of a window (30_encoding.md R137). -/
def pcOf (w : List Byte) : Half := be16 (w.getD 5 0#8) (w.getD 6 0#8)

/-- The window starts with A5 5A and its record's bytes up to the antenna byte are not all there (43_tag_parser.md R302). -/
def ShortRecord (w : List Byte) : Prop :=
  2 ≤ w.length ∧ w.getD 0 0#8 = 0xA5#8 ∧ w.getD 1 0#8 = 0x5A#8 ∧ (w.length < 7 ∨ w.length < 10 + epcLength (pcOf w))

end Sys2Proof.Statements

open Sys2Proof Sys2Proof.Machine Sys2Proof.Statements

/-! ### The step and the schedule -/

/-- 00_scope.md R10, R16; the schedule of encoded entries is the model's (log 1, log 3). -/
def Obligations.ScheduledEntryRunsItsInstruction : Prop :=
  ∀ (s : State) (m : List Byte) (rest : List (List Byte)) (i : Instr),
    s.pending = m :: rest → decode s.cfg.swResetOpcode m = .ok i → i.wellFormed = true →
    step s = exec i { s with pending := rest }

/-- 20_memory.md R105: "A model refuses a narrower access"; the bytes of the entries are the model's (log 3, log 17). -/
def Obligations.NarrowHostAccessIsRefused : Prop :=
  ∀ (s : State) (size off : Byte) (data : List Byte) (rest : List (List Byte)), size.toNat < 4 →
    (s.pending = (0x57#8 :: size :: off :: data) :: rest ∨ s.pending = [0x52#8, size, off] :: rest) →
    step s = .refused .narrowAccess

/-- 00_scope.md R10, R11, 70_reset_and_hazards.md R462: the order between agents is not fixed, but an internal step that stays enabled is
eventually taken. First what is run where nothing is scheduled: free steps and engine turns, each a free value, which is the model's form
(log 2). Then weak fairness, of every unending run, from any state and under any schedule. -/
def Obligations.EmptyScheduleTakesTheFreeChoice : Prop :=
  (∀ s : State, s.pending = [] →
    (∀ k, s.slack = k + 1 → ∃ u, u = { s with slack := k } ∧
      (step s = exec (Config.nextStep s.turn s.slack) u ∨ step s = .next u) ∧
      ((Config.nextStep s.turn s.slack).wellFormed = true → Config.nextStep s.turn s.slack ≠ .txAccept →
        step s = exec (Config.nextStep s.turn s.slack) u)) ∧
    (s.slack = 0 → ∃ u, u = { s with turn := s.turn + 1, slack := Config.freeSteps (s.turn + 1) } ∧
      (engineEnabled (engineOfTurn s.turn) s = true → step s = exec (engineInstr (engineOfTurn s.turn)) u) ∧
      (engineEnabled (engineOfTurn s.turn) s = false → step s = .next u))) ∧
  ∀ run : Nat → State, IsRun run → WeaklyFair run

/-- 60_exceptions.md R400: raising an event never stops a step, and RLF has no trap; so every instruction completes. -/
def Obligations.EveryInstructionAnswersANextState : Prop :=
  ∀ (i : Instr) (s : State), ∃ t, exec i s = .next t

/-- 10_state.md R54 for the parameters; that the schedule's fields stay is the model's (log 1, log 2, log 28). -/
def Obligations.NoInstructionChangesParametersOrSchedule : Prop :=
  ∀ (i : Instr) (s t : State), exec i s = .next t → t.cfg = s.cfg ∧ t.pending = s.pending ∧ t.turn = s.turn ∧
    t.slack = s.slack

/-! ### Reset -/

/-- 10_state.md R63, 40_host_access.md R192: both resets, and the state the model starts from. -/
def Obligations.ResetsLeaveTheResetTable : Prop :=
  (∀ s : State, ∃ t u, exec .hardReset s = .next t ∧ exec .blkReset s = .next u ∧
    ResetValues t ∧ t.txwire = [] ∧ t.cfg = s.cfg ∧ ResetValues u ∧ u.txwire = s.txwire ∧ u.cfg = s.cfg) ∧
  ResetValues State.reset ∧ State.reset.txwire = []

/-- 70_reset_and_hazards.md R440: no engine step is enabled after HardReset, and received bytes are discarded without an event. That a step
not enabled leaves the state as it is, is the model's reading (log 6). -/
def Obligations.NothingMovesAfterHardReset : Prop :=
  ∀ s : State, ∃ t, exec .hardReset s = .next t ∧ exec .delinStep t = .next t ∧ exec .tagStep t = .next t ∧
    exec .txAccept t = .next t ∧ ∀ b, exec (.rxByte b) t = .next t

/-! ### Host reads -/

/-- 10_state.md R34, R37, R39, R42, R48, R53, R55, 40_host_access.md R180; `rdata` is the model's name for the value returned (log 11). -/
def Obligations.StoredRegistersReadBack : Prop :=
  ∀ s : State,
    exec .ctrlRead s = .next { s with rdata := s.ctrl } ∧
    exec .ieRead s = .next { s with rdata := s.ie } ∧
    exec .txOpcodeRead s = .next { s with rdata := BitVec.ofNat 32 s.txOpcode.toNat } ∧
    exec .expOpcodeRead s = .next { s with rdata := BitVec.ofNat 32 s.expOpcode.toNat } ∧
    exec .rxRidxRead s = .next { s with rdata := BitVec.ofNat 32 s.slot.ridx.toNat } ∧
    exec .cntRxdropRead s = .next { s with rdata := s.cntRxdrop } ∧
    exec .cntFramesRead s = .next { s with rdata := s.cntFrames } ∧
    exec .cntTagsRead s = .next { s with rdata := s.cntTags } ∧
    ∀ off, exec (.unmappedOrWoRead off) s = .next { s with rdata := 0x00000000#32 }

/-- 10_state.md R35, R36: the live bits, the sticky bits, and 0 in the reserved bits. -/
def Obligations.StatusReadsLiveAndStickyBits : Prop :=
  ∀ s : State, s.sticky &&& ~~~0x0007FF00#32 = 0x00000000#32 →
    ∃ v : Word, exec .statusRead s = .next { s with rdata := v } ∧
      v.getLsbD 0 = s.txBusy ∧ v.getLsbD 1 = s.slot.valid ∧ (v.getLsbD 2 = true ↔ s.tagq ≠ []) ∧ v.getLsbD 3 = s.ending ∧
      (∀ i, 8 ≤ i → i ≤ 18 → v.getLsbD i = s.sticky.getLsbD i) ∧
      ∀ i, (4 ≤ i ∧ i ≤ 7) ∨ 19 ≤ i → v.getLsbD i = false

/-- 10_state.md R41, R52, R54: the four level and parameter registers as numbers. -/
def Obligations.LevelAndParameterReads : Prop :=
  ∀ s : State, Inv s →
    ∃ p l c d : Word,
      exec .txPlenRead s = .next { s with rdata := p } ∧ p.toNat = s.txbuf.length ∧
      exec .levelsRead s = .next { s with rdata := l } ∧
      l.toNat = s.rxq.length + 65536 * s.win.length + 16777216 * s.tagq.length ∧
      exec .cfg0Read s = .next { s with rdata := c } ∧ c.toNat = s.cfg.txpDepth + 65536 * s.cfg.rxpDepth ∧
      exec .cfg1Read s = .next { s with rdata := d } ∧
      d.toNat = s.cfg.rxqDepth + 65536 * s.cfg.tagwDepth + 16777216 * s.cfg.tagqDepth

/-- 10_state.md R44, R45, R46: RX_HDR and RX_INFO as numbers, ACK_MATCH compared at the read, 0 while the slot is empty. -/
def Obligations.RxHeaderAndInfoReads : Prop :=
  ∀ s : State, Inv s →
    ∃ h i : Word, exec .rxHdrRead s = .next { s with rdata := h } ∧ exec .rxInfoRead s = .next { s with rdata := i } ∧
      (s.slot.valid = true →
        h.toNat = s.slot.opcode.toNat + 256 * s.slot.chk.toNat + 65536 * s.slot.len.toNat ∧
        i.toNat = s.slot.pbuf.length + 65536 * s.slot.computed.toNat + 16777216 * s.slot.chkOk.toNat +
          33554432 * s.slot.eofOk.toNat + 67108864 * (s.slot.opcode == s.expOpcode).toNat) ∧
      (s.slot.valid = false → h = 0x00000000#32 ∧ i = 0x00000000#32)

/-- 10_state.md R49, R50, R51: TAG_HDR, TAG_RSSI and TAG_EPCk of the head record, 0 while TAGQ is empty. -/
def Obligations.TagRegisterReads : Prop :=
  ∀ (s : State) (k : BitVec 4), Inv s →
    ∃ h g e : Word, exec .tagHdrRead s = .next { s with rdata := h } ∧ exec .tagRssiRead s = .next { s with rdata := g } ∧
      exec (.tagEpcRead k) s = .next { s with rdata := e } ∧
      (∀ r rest, s.tagq = r :: rest →
        h.toNat = r.epcLen + 256 * r.ant.toNat + 65536 * r.pc.toNat ∧ g.toInt = r.rssi.toInt ∧
        e.toNat = 16777216 * (r.epc.getD (4 * k.toNat) 0#8).toNat + 65536 * (r.epc.getD (4 * k.toNat + 1) 0#8).toNat +
          256 * (r.epc.getD (4 * k.toNat + 2) 0#8).toNat + (r.epc.getD (4 * k.toNat + 3) 0#8).toNat) ∧
      (s.tagq = [] → h = 0x00000000#32 ∧ g = 0x00000000#32 ∧ e = 0x00000000#32)

/-- 42_rx_framer.md R261, 10_state.md R47; `rdata` is the model's name for the value returned (log 11). -/
def Obligations.RxDataReadPopsOneByte : Prop :=
  ∀ s : State,
    (s.slot.valid = true ∧ s.slot.ridx.toNat < s.slot.pbuf.length →
      exec .rxDataRead s = .next { s with
        rdata := BitVec.ofNat 32 (s.slot.pbuf.getD s.slot.ridx.toNat 0#8).toNat
        slot := { s.slot with ridx := s.slot.ridx + 1#16 } }) ∧
    (¬(s.slot.valid = true ∧ s.slot.ridx.toNat < s.slot.pbuf.length) →
      exec .rxDataRead s = .next { s with rdata := 0x00000000#32 })

/-- 40_host_access.md R180, R183, 20_memory.md R105: every offset reads the register at `off AND 0xFC`, with no side effect but RX_DATA's.
20_memory.md R101: a read at the host address `RLF_BASE + off` is that read, and one outside the window leaves RLF as it is. The bytes of the
entries, and `rdata`, are the model's (log 3, log 22, log 11). -/
def Obligations.EveryOffsetReadsItsRegister : Prop :=
  (∀ (s : State) (off : Byte) (rest : List (List Byte)), s.pending = encodeRead off :: rest → off &&& 0xFC#8 ≠ 0x28#8 →
    step s = .next { s with pending := rest, rdata := registerValue off s }) ∧
  ∀ (s : State) (addr : List Byte) (rest : List (List Byte)), addr.length ≤ 255 → s.pending = encodeHostRead addr :: rest →
    (∀ off : Byte, addressOf addr = s.cfg.rlfBase + off.toNat → step s = step { s with pending := encodeRead off :: rest }) ∧
    (addressOf addr < s.cfg.rlfBase ∨ s.cfg.rlfBase + 0xFF < addressOf addr → step s = .next { s with pending := rest })

/-! ### Host writes and commands -/

/-- 40_host_access.md R182, R193. -/
def Obligations.CtrlWriteStoresItsFieldsAndGuardsTagEn : Prop :=
  ∀ (v : Word) (s : State), ∃ c : Word,
    exec (.ctrlWrite v) s = .next { s with
      ctrl := c
      sticky := if v.getLsbD 1 && s.ending then s.sticky ||| 0x00010000#32 else s.sticky } ∧
    c.getLsbD 0 = v.getLsbD 0 ∧ c.getLsbD 1 = (v.getLsbD 1 && !s.ending) ∧ c.getLsbD 2 = v.getLsbD 2 ∧
    c.getLsbD 3 = v.getLsbD 3 ∧ ∀ i, 4 ≤ i → c.getLsbD i = false

/-- 40_host_access.md R186. -/
def Obligations.StatusWriteClearsTheBitsWrittenOne : Prop :=
  ∀ (v : Word) (s : State), ∃ c : Word, exec (.statusW1c v) s = .next { s with sticky := c } ∧
    ∀ i, c.getLsbD i = if 8 ≤ i ∧ i ≤ 18 then s.sticky.getLsbD i && !(v.getLsbD i) else s.sticky.getLsbD i

/-- 40_host_access.md R184, R185. -/
def Obligations.IeAndExpOpcodeWritesStoreTheirFields : Prop :=
  ∀ (v : Word) (s : State),
    exec (.ieWrite v) s = .next { s with ie := v &&& 0x0007FF06#32 } ∧
    exec (.expOpcodeWrite v) s = .next { s with expOpcode := BitVec.ofNat 8 (v.toNat % 256) }

/-- 40_host_access.md R181, 20_memory.md R105: every writable offset, its bits 1:0 not decoded, reaches its register's write; a CMD word is the
CMD write of its bits, the lone commands included. 20_memory.md R101: a write at the host address `RLF_BASE + off` is that write, and one
outside the window leaves RLF as it is. The bytes of the entries are the model's (log 3, log 16, log 22). -/
def Obligations.EveryOffsetWritesItsRegister : Prop :=
  (∀ (s : State) (off : Byte) (v : Word) (rest : List (List Byte)), s.pending = encodeWrite off v :: rest →
    (off &&& 0xFC#8 = 0x00#8 → step s = exec (.ctrlWrite v) { s with pending := rest }) ∧
    (off &&& 0xFC#8 = 0x04#8 → step s = exec (.statusW1c v) { s with pending := rest }) ∧
    (off &&& 0xFC#8 = 0x08#8 → step s = exec (.ieWrite v) { s with pending := rest }) ∧
    (off &&& 0xFC#8 = 0x0C#8 → step s = exec (.cmdWrite v) { s with pending := rest }) ∧
    (off &&& 0xFC#8 = 0x10#8 → step s = exec (.txOpcodeWrite v) { s with pending := rest }) ∧
    (off &&& 0xFC#8 = 0x14#8 → step s = exec (.txDataWrite v) { s with pending := rest }) ∧
    (off &&& 0xFC#8 = 0x1C#8 → step s = exec (.expOpcodeWrite v) { s with pending := rest })) ∧
  ∀ (s : State) (addr : List Byte) (v : Word) (rest : List (List Byte)), addr.length ≤ 255 → s.pending = encodeHostWrite addr v :: rest →
    (∀ off : Byte, addressOf addr = s.cfg.rlfBase + off.toNat → step s = step { s with pending := encodeWrite off v :: rest }) ∧
    (addressOf addr < s.cfg.rlfBase ∨ s.cfg.rlfBase + 0xFF < addressOf addr → step s = .next { s with pending := rest })

/-- 40_host_access.md R187: at the bus, for every offset of a read-only register or of no register, and as an instruction. The entry taken off
the schedule, and its bytes, are the model's (log 1, log 3). -/
def Obligations.ReadOnlyAndUnmappedWritesDoNothing : Prop :=
  (∀ (s : State) (off : Byte) (v : Word) (rest : List (List Byte)), s.pending = encodeWrite off v :: rest →
    ((off &&& 0xFC#8) = 0x18#8 ∨ 0x20 ≤ (off &&& 0xFC#8).toNat) → step s = .next { s with pending := rest }) ∧
  ∀ (s : State) (off : Byte) (v : Word), exec (.roOrUnmappedWrite off v) s = .next s

/-- 41_tx_framer.md R220, R221, R222. -/
def Obligations.TxRegisterWritesAndClear : Prop :=
  ∀ (v : Word) (s : State),
    exec (.txOpcodeWrite v) s =
      (if s.txBusy then .next { s with sticky := s.sticky ||| 0x00010000#32 }
       else .next { s with txOpcode := BitVec.ofNat 8 (v.toNat % 256) }) ∧
    exec (.txDataWrite v) s =
      (if s.txBusy then .next { s with sticky := s.sticky ||| 0x00010000#32 }
       else if s.txbuf.length = s.cfg.txpDepth then .next { s with sticky := s.sticky ||| 0x00020000#32 }
       else .next { s with txbuf := s.txbuf ++ [BitVec.ofNat 8 (v.toNat % 256)] }) ∧
    exec .txClr s =
      (if s.txBusy then .next { s with sticky := s.sticky ||| 0x00010000#32 } else .next { s with txbuf := [] })

/-- 41_tx_framer.md R223. -/
def Obligations.TxSendLatchesOneFrame : Prop :=
  ∀ s : State,
    exec .txSend s =
      if s.txBusy then .next { s with sticky := s.sticky ||| 0x00010000#32 }
      else .next { s with
        txFrame := frameEncode s.txOpcode s.txbuf
        txIdx := 0
        txBusy := true
        expOpcode := BitVec.ofNat 8 ((s.txOpcode.toNat + 1) % 256) }

/-- 42_rx_framer.md R262, R263, 40_host_access.md R191. -/
def Obligations.RxPopRxFlushAndCounterClear : Prop :=
  ∀ s : State,
    exec .rxPop s =
      (if s.slot.valid then
        .next { s with slot :=
          { valid := false, opcode := 0#8, len := 0#16, pbuf := [], chk := 0#8, computed := 0#8, chkOk := false, eofOk := false,
            ridx := 0#16 } }
       else .next s) ∧
    exec .rxFlush s =
      (if s.slot.valid then
        .next { s with
          rxq := []
          slot := { valid := false, opcode := 0#8, len := 0#16, pbuf := [], chk := 0#8, computed := 0#8, chkOk := false,
                    eofOk := false, ridx := 0#16 } }
       else .next { s with rxq := [] }) ∧
    exec .cntClr s = .next { s with cntRxdrop := 0#32, cntFrames := 0#32, cntTags := 0#32 }

/-- 43_tag_parser.md R310, R311, R312. -/
def Obligations.TagEndTagPopAndTagFlush : Prop :=
  ∀ s : State,
    exec .tagEnd s =
      (if s.ending then .next { s with sticky := s.sticky ||| 0x00010000#32 }
       else .next { s with ctrl := s.ctrl &&& 0xFFFFFFFD#32, ending := true }) ∧
    exec .tagPop s = .next { s with tagq := s.tagq.tail } ∧
    exec .tagFlush s = .next { s with win := [], skip := 0, tagq := [], ending := false }

/-- 40_host_access.md R189, R190: bit 31 alone, else the commands in the stated order, each seeing the state the one before left; no command
bit, no effect. -/
def Obligations.CmdWriteRunsItsCommandsInOrder : Prop :=
  ∀ (v : Word) (s : State),
    (v.getLsbD 31 = true → ∃ t, exec (.cmdWrite v) s = .next t ∧ exec .blkReset s = .next t) ∧
    (v.getLsbD 31 = false → ∃ t, exec (.cmdWrite v) s = .next t ∧ execAll (commandsOf v) s = .next t) ∧
    ((v.getLsbD 31 = false ∧ ∀ i, i ≤ 7 → v.getLsbD i = false) → exec (.cmdWrite v) s = .next s)

/-- 40_host_access.md R188: exactly these causes, no other effect where they refuse, and nothing raised by a pop with nothing to pop. -/
def Obligations.CmdErrHasExactlyTheseCauses : Prop :=
  (∀ (i : Instr) (s t : State), s.sticky.getLsbD 16 = false → exec i s = .next t →
    (t.sticky.getLsbD 16 = true ↔ cmdErrCause i s = true)) ∧
  (∀ (i : Instr) (s : State), cmdErrCause i s = true → (∀ v, i ≠ .ctrlWrite v) → (∀ v, i ≠ .cmdWrite v) →
    exec i s = .next { s with sticky := s.sticky ||| 0x00010000#32 }) ∧
  (∀ (v : Word) (s : State), v.getLsbD 1 = true → s.ending = true →
    ∃ c : Word, exec (.ctrlWrite v) s = .next { s with ctrl := c, sticky := s.sticky ||| 0x00010000#32 } ∧
      ∀ i, c.getLsbD i = (v.getLsbD i && (decide (i < 4) && decide (i ≠ 1)))) ∧
  (∀ s : State, s.slot.valid = false → exec .rxPop s = .next s) ∧
  ∀ s : State, s.tagq = [] → exec .tagPop s = .next s

/-! ### Transmit -/

/-- 41_tx_framer.md R226. -/
def Obligations.TxAcceptSendsTheNextByte : Prop :=
  ∀ s : State, s.txBusy = true →
    exec .txAccept s =
      if s.txIdx + 1 = s.txFrame.length then
        .next { s with
          txwire := s.txwire ++ [s.txFrame.getD s.txIdx 0#8]
          txIdx := s.txIdx + 1
          txBusy := false
          sticky := s.sticky ||| 0x00000100#32 }
      else .next { s with txwire := s.txwire ++ [s.txFrame.getD s.txIdx 0#8], txIdx := s.txIdx + 1 }

/-- 41_tx_framer.md R227: TX_SEND and as many TxAccepts as the frame has bytes put the whole frame on TXWIRE. -/
def Obligations.AFrameIsTransmittedWhole : Prop :=
  ∀ s : State, s.txBusy = false →
    ∃ t, execAll (.txSend :: List.replicate (s.txbuf.length + 8) .txAccept) s = .next t ∧
      t.txwire = s.txwire ++ frameEncode s.txOpcode s.txbuf ∧ t.txBusy = false ∧ t.sticky.getLsbD 8 = true ∧
      t.rxq = s.rxq ∧ t.slot = s.slot ∧ t.tagq = s.tagq

/-- 20_memory.md R113, 41_tx_framer.md R227: while a frame is being transmitted nothing but a reset changes it, and nothing but TxAccept
moves it on. -/
def Obligations.NothingChangesTheFrameInFlight : Prop :=
  ∀ (i : Instr) (s t : State), NoReset i → s.txBusy = true → exec i s = .next t →
    t.txFrame = s.txFrame ∧ (i ≠ .txAccept → t.txIdx = s.txIdx ∧ t.txBusy = true ∧ t.txwire = s.txwire ∧ t.txbuf = s.txbuf ∧
      t.txOpcode = s.txOpcode)

/-- 10_state.md R31; the reset of TXWIRE is R63's. -/
def Obligations.TxwireGrowsByTxAcceptAlone : Prop :=
  ∀ (i : Instr) (s t : State), exec i s = .next t →
    (i = .txAccept → s.txBusy = true → ∃ b, t.txwire = s.txwire ++ [b]) ∧
    (i ≠ .txAccept → i ≠ .hardReset → t.txwire = s.txwire)

/-- 41_tx_framer.md R228: the TX steps do not write the RX side, and what they do does not depend on it. -/
def Obligations.TransmitIsIndependentOfReceive : Prop :=
  ∀ (i : Instr) (s s' t t' : State), IsTxStep i → SameTx s s' → exec i s = .next t → exec i s' = .next t' →
    SameTx t t' ∧ SameRx s t

/-! ### Receive -/

/-- 42_rx_framer.md R250, 43_tag_parser.md R300, 60_exceptions.md R409. That TAG_FEED is also a step of its own is the model's (log 10). -/
def Obligations.ReceiveEvents : Prop :=
  ∀ (b : Byte) (s : State),
    exec (.tagFeed b) s =
      (if s.ctrl.getLsbD 1 = false then .next s
       else if 0 < s.skip then .next { s with skip := s.skip - 1 }
       else if s.win.length < s.cfg.tagwDepth then .next { s with win := s.win ++ [b] }
       else .next { s with sticky := s.sticky ||| 0x00004000#32 }) ∧
    exec (.rxByte b) s =
      exec (.tagFeed b)
        (if s.ctrl.getLsbD 0 then
          (if s.rxq.length < s.cfg.rxqDepth then { s with rxq := s.rxq ++ [b] }
           else { s with sticky := s.sticky ||| 0x00000200#32 })
         else s) ∧
    exec .rxLineError s = .next { s with sticky := s.sticky ||| 0x00040000#32 }

/-- 42_rx_framer.md R254, R255, R258, R259. -/
def Obligations.DelineatorDropsOrDelivers : Prop :=
  ∀ s : State, s.ctrl.getLsbD 0 = true → s.slot.valid = false →
    (headClass s = .drop .sof →
      exec .delinStep s = .next { s with rxq := s.rxq.drop 1, cntRxdrop := s.cntRxdrop + 1#32 }) ∧
    (headClass s = .drop .len →
      exec .delinStep s = .next { s with
        rxq := s.rxq.drop 1, cntRxdrop := s.cntRxdrop + 1#32, sticky := s.sticky ||| 0x00000400#32 }) ∧
    (∀ k e, headClass s = .drop (.cand k e) →
      exec .delinStep s = .next { s with
        rxq := s.rxq.drop 1, cntRxdrop := s.cntRxdrop + 1#32, sticky := s.sticky ||| checkEvents k e }) ∧
    ∀ f c k e, headClass s = .accept f c k e →
      exec .delinStep s = .next { s with
        slot := { valid := true, opcode := f.getD 4 0#8, len := BitVec.ofNat 16 f.length, pbuf := (f.drop 5).take (f.length - 8),
                  chk := f.getD (f.length - 3) 0#8, computed := c, chkOk := k, eofOk := e, ridx := 0#16 }
        rxq := s.rxq.drop f.length
        cntFrames := s.cntFrames + 1#32
        sticky := s.sticky ||| checkEvents k e }

/-- 42_rx_framer.md R251, each result with exactly the byte sequences that have it. -/
def Obligations.ClassifyResultsAreExact : Prop :=
  ∀ (m : Nat) (chk eof : Bool) (q : List Byte),
    (classify m chk eof q = .wait ↔
      q = [] ∨ q = [0xA5#8] ∨
      (2 ≤ q.length ∧ q.getD 0 0#8 = 0xA5#8 ∧ q.getD 1 0#8 = 0x5A#8 ∧
        (q.length < 4 ∨ (8 ≤ headLength q ∧ headLength q ≤ m ∧ q.length < headLength q)))) ∧
    (classify m chk eof q = .drop .sof ↔
      q ≠ [] ∧ (q.getD 0 0#8 ≠ 0xA5#8 ∨ (2 ≤ q.length ∧ q.getD 1 0#8 ≠ 0x5A#8))) ∧
    (classify m chk eof q = .drop .len ↔
      4 ≤ q.length ∧ q.getD 0 0#8 = 0xA5#8 ∧ q.getD 1 0#8 = 0x5A#8 ∧ (headLength q < 8 ∨ m < headLength q)) ∧
    (∀ k e, classify m chk eof q = .drop (.cand k e) ↔
      Complete m q ∧ k = chkOf (q.take (headLength q)) ∧ e = eofOf (q.take (headLength q)) ∧
      ((chk = true ∧ k = false) ∨ (eof = true ∧ e = false))) ∧
    ∀ f c k e, classify m chk eof q = .accept f c k e ↔
      Complete m q ∧ f = q.take (headLength q) ∧ c = calcOf f ∧ k = chkOf f ∧ e = eofOf f ∧
      (chk = true → k = true) ∧ (eof = true → e = true)

/-- 42_rx_framer.md R252: running the delineator on RXQ computes `try_parse`. The steps left over hold, by the model's reading (log 6). -/
def Obligations.DelineatorComputesTryParse : Prop :=
  ∀ s : State, s.ctrl.getLsbD 0 = true → s.slot.valid = false →
    ∃ t, execAll (List.replicate (s.rxq.length + 1) .delinStep) s = .next t ∧
      match tryParse s.cfg.maxFrame (s.ctrl.getLsbD 2) (s.ctrl.getLsbD 3) s.rxq with
      | .frame f n =>
        t.rxq = s.rxq.drop n ∧ t.slot.valid = true ∧ t.slot.opcode = f.getD 4 0#8 ∧
        t.slot.pbuf = (f.drop 5).take (f.length - 8) ∧ t.cntFrames = s.cntFrames + 1#32
      | .incomplete n => t.rxq = s.rxq.drop n ∧ t.slot = s.slot ∧ t.cntFrames = s.cntFrames
      | .notFound n => t.rxq = s.rxq.drop n ∧ t.slot = s.slot ∧ t.cntFrames = s.cntFrames

/-- 41_tx_framer.md R229: a frame's bytes, arriving alone, are delivered as exactly that frame, whatever CHK_EN and EOF_EN are; before its
last byte the delineator's step is not enabled (R253), and holds by the model's reading (log 6). -/
def Obligations.EncodedFrameIsDeliveredAsItself : Prop :=
  ∀ (s : State) (op : Byte) (p : List Byte), s.cfg.Valid → s.ctrl.getLsbD 0 = true → s.slot.valid = false → s.rxq = [] →
    p.length ≤ s.cfg.rxpDepth →
    (∀ n, n < p.length + 8 → ∃ t, execAll (((frameEncode op p).take n).map .rxByte) s = .next t ∧ exec .delinStep t = .next t) ∧
    ∃ t u, execAll ((frameEncode op p).map .rxByte) s = .next t ∧ exec .delinStep t = .next u ∧
      u.slot = { valid := true, opcode := op, len := BitVec.ofNat 16 (p.length + 8), pbuf := p,
                 chk := xor8 (checkedBytes op p), computed := xor8 (checkedBytes op p), chkOk := true, eofOk := true, ridx := 0#16 } ∧
      u.rxq = [] ∧ u.cntFrames = s.cntFrames + 1#32 ∧ u.cntRxdrop = s.cntRxdrop

/-- 42_rx_framer.md R260: noise none of whose suffixes is accepted or waits is discarded byte by byte, and the frame after it delivered,
for a stream that is already whole in RXQ. -/
def Obligations.NoiseBeforeAFrameIsDiscarded : Prop :=
  ∀ (s : State) (g : List Byte) (op : Byte) (p : List Byte), s.cfg.Valid → s.ctrl.getLsbD 0 = true → s.slot.valid = false →
    p.length ≤ s.cfg.rxpDepth → s.rxq = g ++ frameEncode op p →
    (∀ n, n < g.length →
      ∃ r, classify s.cfg.maxFrame (s.ctrl.getLsbD 2) (s.ctrl.getLsbD 3) (s.rxq.drop n) = .drop r) →
    ∃ t, execAll (List.replicate (g.length + 1) .delinStep) s = .next t ∧
      t.slot.valid = true ∧ t.slot.opcode = op ∧ t.slot.pbuf = p ∧ t.slot.chkOk = true ∧ t.slot.eofOk = true ∧ t.rxq = [] ∧
      t.cntRxdrop = s.cntRxdrop + BitVec.ofNat 32 g.length ∧ t.cntFrames = s.cntFrames + 1#32

/-- 30_encoding.md R130, R132, R133, 41_tx_framer.md R225: every field of an encoded frame at its offset. -/
def Obligations.EncodedFrameHasTheFrameLayout : Prop :=
  ∀ (op : Byte) (p : List Byte), p.length ≤ 65527 →
    ∃ f, f = frameEncode op p ∧ f.length = p.length + 8 ∧ f.getD 0 0#8 = 0xA5#8 ∧ f.getD 1 0#8 = 0x5A#8 ∧
      256 * (f.getD 2 0#8).toNat + (f.getD 3 0#8).toNat = p.length + 8 ∧ f.getD 4 0#8 = op ∧
      (f.drop 5).take p.length = p ∧ f.getD (5 + p.length) 0#8 = xor8 ((f.drop 2).take (p.length + 3)) ∧
      f.drop (6 + p.length) = [0x0D#8, 0x0A#8]

/-- 30_encoding.md R133: the XOR through the CHECKSUM byte is 0 exactly when the checksum matches. -/
def Obligations.ChecksumResidueIsZeroOnMatch : Prop :=
  ∀ f : List Byte, 8 ≤ f.length →
    (xor8 ((f.drop 2).take (f.length - 4)) = 0x00#8 ↔ f.getD (f.length - 3) 0#8 = xor8 ((f.drop 2).take (f.length - 5)))

/-! ### The tag parser -/

/-- 43_tag_parser.md R305: the record at the head of the window is pushed and its span skipped, by TAG_STEP and by TAG_RECORD. -/
def Obligations.TagRecordIsEmitted : Prop :=
  ∀ (s : State) (a b c : Byte) (pc : Half) (epc : List Byte) (rssi : Half) (ant : Byte) (x : List Byte),
    s.win = [0xA5#8, 0x5A#8, a, b, c, hi8 pc, lo8 pc] ++ epc ++ [hi8 rssi, lo8 rssi, ant] ++ x →
    epc.length = epcLength pc → s.tagq.length < s.cfg.tagqDepth →
    ∃ t, t = { s with
          tagq := s.tagq ++ [{ pc := pc, epcLen := epc.length, epc := epc, rssi := rssi, ant := ant }]
          cntTags := s.cntTags + 1#32
          win := x.drop 3
          skip := 3 - x.length } ∧
      exec .tagStep s = .next t ∧ exec (.tagRecord pc epc rssi ant) s = .next t

/-- 43_tag_parser.md R304, R306, R309. -/
def Obligations.TagStepSkipsUnderrunsAndCompletes : Prop :=
  ∀ s : State,
    (tclass s.win s.ending = .skip1 → exec .tagStep s = .next { s with win := s.win.drop 1 }) ∧
    (tclass s.win s.ending = .underrun →
      exec .tagStep s = .next { s with win := s.win.drop 1, sticky := s.sticky ||| 0x00002000#32 }) ∧
    (s.ending = true ∧ s.win = [] →
      exec .tagStep s = .next { s with ending := false, skip := 0, sticky := s.sticky ||| 0x00008000#32 })

/-- 43_tag_parser.md R302, each result with exactly the windows that have it. -/
def Obligations.TagClassResultsAreExact : Prop :=
  ∀ (w : List Byte) (e : Bool),
    (tclass w e = .idle ↔ w = []) ∧
    (tclass w e = .skip1 ↔
      w ≠ [] ∧ (w.getD 0 0#8 ≠ 0xA5#8 ∨ (w = [0xA5#8] ∧ e = true) ∨ (2 ≤ w.length ∧ w.getD 1 0#8 ≠ 0x5A#8))) ∧
    (tclass w e = .wait ↔ e = false ∧ (w = [0xA5#8] ∨ ShortRecord w)) ∧
    (tclass w e = .underrun ↔ e = true ∧ ShortRecord w) ∧
    ∀ r, tclass w e = .record r ↔
      w.getD 0 0#8 = 0xA5#8 ∧ w.getD 1 0#8 = 0x5A#8 ∧ 10 + epcLength (pcOf w) ≤ w.length ∧
      r = { pc := pcOf w, epcLen := epcLength (pcOf w), epc := (w.drop 7).take (epcLength (pcOf w))
            rssi := be16 (w.getD (7 + epcLength (pcOf w)) 0#8) (w.getD (8 + epcLength (pcOf w)) 0#8)
            ant := w.getD (9 + epcLength (pcOf w)) 0#8 }

/-- 43_tag_parser.md R302: once the window is large enough for a result other than Wait, bytes added at its end do not change it; an end of
burst does not change it either. -/
def Obligations.TagClassIsMonotone : Prop :=
  ∀ w x : List Byte, w ≠ [] → tclass w false ≠ .wait → ∀ e, tclass (w ++ x) e = tclass w false

/-- 43_tag_parser.md R308: a window of 72 bytes or more never waits. -/
def Obligations.FullWindowNeverWaits : Prop :=
  ∀ (w : List Byte) (e : Bool), 72 ≤ w.length → tclass w e ≠ .wait

/-- 43_tag_parser.md R315, for a burst in which the host pops nothing: the records of TAGQ are `decode` of the bytes received.
TAG_STEPs not enabled hold, by the model's reading (log 6). -/
def Obligations.BurstEqualsDecode : Prop :=
  ∀ (s t u : State) (l : List Instr) (n : Nat),
    s.cfg.Valid → s.ctrl.getLsbD 1 = true → s.win = [] → s.skip = 0 → s.ending = false → s.tagq = [] →
    (∀ i ∈ l, (∃ b, i = .rxByte b) ∨ i = .tagStep) →
    execAll (l ++ [.tagEnd]) s = .next t → t.sticky.getLsbD 14 = false →
    execAll (List.replicate n .tagStep) t = .next u → u.ending = false →
    u.tagq = tagDecode (receivedBytes l)

/-- 40_host_access.md R193, 43_tag_parser.md R310: while an end of burst runs, no step lets a byte into the window or sets TAG_EN. -/
def Obligations.NoByteEntersTheWindowWhileEnding : Prop :=
  ∀ (i : Instr) (s t : State), s.ending = true → s.ctrl.getLsbD 1 = false → exec i s = .next t → t.ending = true →
    t.win <:+ s.win ∧ t.ctrl.getLsbD 1 = false

/-- 60_exceptions.md R410: only the host's pops, flushes and a reset take records or the delivered frame away. -/
def Obligations.OnlyHostCommandsDiscardResults : Prop :=
  ∀ (i : Instr) (s t : State), NoReset i → exec i s = .next t →
    (i ≠ .tagPop → i ≠ .tagFlush → (∀ v, i = .cmdWrite v → v.getLsbD 4 = false ∧ v.getLsbD 6 = false) → s.tagq <+: t.tagq) ∧
    (i ≠ .rxPop → i ≠ .rxFlush → (∀ v, i = .cmdWrite v → v.getLsbD 2 = false ∧ v.getLsbD 3 = false) → s.slot.valid = true →
      t.slot = { s.slot with ridx := t.slot.ridx })

/-- 30_encoding.md R137: EPC_LEN is even, at most 62, and read from PC bits 15:11 alone. -/
def Obligations.EpcLengthReadsTheTopFiveBits : Prop :=
  ∀ pc low : Half, epcLength pc = 2 * (pc.toNat / 2048) ∧ epcLength pc % 2 = 0 ∧ epcLength pc ≤ 62 ∧
    epcLength ((pc &&& 0xF800#16) ||| (low &&& 0x07FF#16)) = epcLength pc

/-! ### Wire commands -/

/-- 44_commands.md R351 to R361, 30_encoding.md R146, 41_tx_framer.md R223: with TX_BUSY = 0 each request loads and latches its own frame. That
the composition's accesses are one step is the model's (log 7); SOFTWARE_RESET without parameters is R360's assumption (log 13). -/
def Obligations.RequestsSendTheirFrames : Prop :=
  ∀ (s : State) (x y z : Half) (m : Byte), s.cfg.Valid → s.txBusy = false →
    ∀ c ∈ requestTable s.cfg.swResetOpcode x y z m, exec c.1 s = .next (afterSend c.2.1 c.2.2 s)

/-- 30_encoding.md R146: the host accesses of `send OP, [...]`, run one after another, leave what the request's single step leaves. -/
def Obligations.SendProgramLoadsAndLatches : Prop :=
  ∀ (s : State) (op : Byte) (p : List Byte), s.txBusy = false → p.length ≤ s.cfg.txpDepth →
    execAll (sendAccesses op p) s = .next (afterSend op p s)

/-- 44_commands.md R350, R362, 42_rx_framer.md R250: an ack's frame enters RXQ whole where there is room. That its bytes arrive in one step is
the model's (log 8). -/
def Obligations.AcksEnterTheReceiveQueue : Prop :=
  ∀ (s : State) (p : List Byte), s.ctrl.getLsbD 0 = true → s.ctrl.getLsbD 1 = false → s.rxq.length + p.length + 8 ≤ s.cfg.rxqDepth →
    ∀ c ∈ ackTable s.cfg.swResetOpcode p, exec c.1 s = .next { s with rxq := s.rxq ++ frameEncode c.2 p }

/-- 44_commands.md R362, 42_rx_framer.md R250: in every state an ack is its frame's bytes, one RX_BYTE after another. The ack rows as single
steps are the model's (log 8). -/
def Obligations.AcksAreTheirBytesArriving : Prop :=
  ∀ (s : State) (p : List Byte), ∀ c ∈ ackTable s.cfg.swResetOpcode p,
    exec c.1 s = execAll ((frameEncode c.2 p).map .rxByte) s

/-- 44_commands.md R364, R366: a power in hundredths of a dBm comes back exactly, and on the validated range its sign never matters. -/
def Obligations.PowerValuesRoundTrip : Prop :=
  ∀ h : Int, 100 ≤ h → h ≤ 3000 →
    rawToHundredths (dbmToRaw h) = h ∧ ((dbmToRaw h).toNat : Int) = h ∧
    rawToDbm (hi8 (dbmToRaw h)) (lo8 (dbmToRaw h)) = (h : ℚ) / 100

/-! ### Events -/

/-- 10_state.md R38: the line is 1 exactly when some bit of 1, 2, 8..18 is 1 in STATUS and in IE. -/
def Obligations.IrqIsTheOrOfEnabledStatusBits : Prop :=
  ∀ s : State, irq s = true ↔
    ∃ i, (i = 1 ∨ i = 2 ∨ (8 ≤ i ∧ i ≤ 18)) ∧ (statusValue s).getLsbD i = true ∧ s.ie.getLsbD i = true

/-- 10_state.md R36: a sticky bit stays 1 until a W1C write of that bit or a reset. -/
def Obligations.StickyBitsStayUntilClearedOrReset : Prop :=
  ∀ (i : Instr) (s t : State) (k : Nat), NoReset i → exec i s = .next t → s.sticky.getLsbD k = true →
    (∀ v, i = .statusW1c v → v.getLsbD k = false) → t.sticky.getLsbD k = true

/-- 00_scope.md R16 (`hold`), 42_rx_framer.md R253, 43_tag_parser.md R303, 41_tx_framer.md R226, 30_encoding.md R146: the engine steps are
enabled exactly as those rules say, and move the state exactly then (TxAccept: whenever TX_BUSY = 1, for the UART that takes the byte is ready).
That a step not enabled, or a poll that fails, leaves the state as it is (a poll: but for the value read) is the model's (log 6, log 7,
log 9). -/
def Obligations.StepsNotEnabledHold : Prop :=
  ∀ s : State,
    (delinEnabled s = true ↔ s.ctrl.getLsbD 0 = true ∧ s.slot.valid = false ∧ headClass s ≠ .wait) ∧
    (tagEnabled s = true ↔ tclass s.win s.ending = .skip1 ∨ tclass s.win s.ending = .underrun ∨ (s.win = [] ∧ s.ending = true) ∨
      ∃ r, tclass s.win s.ending = .record r ∧ s.tagq.length < s.cfg.tagqDepth) ∧
    (exec .delinStep s = .next s ↔ delinEnabled s = false) ∧
    (exec .tagStep s = .next s ↔ tagEnabled s = false) ∧
    (exec .txAccept s = .next s ↔ s.txBusy = false) ∧
    (∀ pc epc rssi ant,
      tclass s.win s.ending ≠ .record { pc := pc, epcLen := epcLength pc, epc := epc, rssi := rssi, ant := ant } →
      exec (.tagRecord pc epc rssi ant) s = .next s) ∧
    ∀ x y z m, s.txBusy = true → ∀ c ∈ requestTable s.cfg.swResetOpcode x y z m,
      exec c.1 s = .next { s with rdata := statusValue s }

/-! ### Invariants and encoding -/

/-- 10_state.md R64, with R8, R55 and R193: every step keeps the invariants. -/
def Obligations.EveryStepKeepsTheInvariants : Prop :=
  ∀ s t : State, Inv s → step s = .next t → Inv t

/-- 10_state.md R64, R63: the reset state meets the invariants. -/
def Obligations.ResetMeetsTheInvariants : Prop := Inv State.reset

/-- 30_encoding.md R130, R136, R142, R145: the decoder reads back what the encoder writes, for every well-formed instruction. The entry's first
byte and the tag frame's opcode are the model's (log 3, log 15). -/
def Obligations.DecodeReadsBackEveryEncoding : Prop :=
  ∀ (sw : Byte) (i : Instr), swResetAllowed sw = true → i.wellFormed = true → decode sw (encode sw i) = .ok i

/-- What the decoder reads is always a well-formed instruction (30_encoding.md R132, R138, 10_state.md R33). -/
def Obligations.DecodedInstructionsAreWellFormed : Prop :=
  ∀ (sw : Byte) (m : List Byte) (i : Instr), decode sw m = .ok i → i.wellFormed = true

/-- A few words of 30_encoding.md R145, R130 and R136 decode to what they stand for (44_commands.md R352, R353; 43_tag_parser.md R305). -/
def Obligations.WrittenOutWordsDecode : Prop :=
  decode 0xE0#8 [0x57#8, 0x04#8, 0x0C#8, 0x00#8, 0x00#8, 0x00#8, 0x20#8] = .ok .tagEnd ∧
  decode 0xE0#8 [0x52#8, 0x04#8, 0x5B#8] = .ok (.tagEpcRead 2#4) ∧
  decode 0xE0#8 [0x53#8, 0xA5#8, 0x5A#8, 0x00#8, 0x08#8, 0x12#8, 0x1A#8, 0x0D#8, 0x0A#8] = .ok .getPower ∧
  decode 0xE0#8 [0x53#8, 0xA5#8, 0x5A#8, 0x00#8, 0x0B#8, 0x28#8, 0x00#8, 0x00#8, 0x05#8, 0x26#8, 0x0D#8, 0x0A#8] =
    .ok (.setAntenna 0x0000#16 0x05#8) ∧
  decode 0xE0#8 [0x41#8, 0xA5#8, 0x5A#8, 0x00#8, 0x09#8, 0x11#8, 0x00#8, 0x18#8, 0x0D#8, 0x0A#8] = .ok (.setPowerAck [0x00#8]) ∧
  decode 0xE0#8 [0x54#8, 0xA5#8, 0x5A#8, 0x00#8, 0x0F#8, 0x00#8, 0x08#8, 0x00#8, 0x11#8, 0x22#8, 0xF8#8, 0x30#8, 0x02#8,
    0xFE#8, 0x0D#8, 0x0A#8] = .ok (.tagRecord 0x0800#16 [0x11#8, 0x22#8] 0xF830#16 0x02#8)
end

