-- ==== Sys2Proof/Laws/Operands.lean ====
section
/-! SUPPORT. Small lemmas about byte order, byte sequences, the checksum, the frame and the PC word, so that no proof unfolds them. -/

namespace Sys2Proof.Machine

/-! ### Byte order -/

@[simp] theorem be16_hi8_lo8 (v : Half) : be16 (hi8 v) (lo8 v) = v := by
  unfold be16 hi8 lo8
  apply BitVec.eq_of_getLsbD_eq
  intro i hi
  simp only [BitVec.getLsbD_append, BitVec.getLsbD_extractLsb']
  rcases Nat.lt_or_ge i 8 with h | h
  · simp [h]
  · simp [show ¬ i < 8 by omega, show i - 8 < 8 by omega, show 8 + (i - 8) = i by omega]

@[simp] theorem hi8_be16 (h l : Byte) : hi8 (be16 h l) = h := by
  unfold be16 hi8
  apply BitVec.eq_of_getLsbD_eq
  intro i hi
  simp only [BitVec.getLsbD_append, BitVec.getLsbD_extractLsb']
  simp [hi]

@[simp] theorem lo8_be16 (h l : Byte) : lo8 (be16 h l) = l := by
  unfold be16 lo8
  apply BitVec.eq_of_getLsbD_eq
  intro i hi
  simp only [BitVec.getLsbD_append, BitVec.getLsbD_extractLsb']
  simp [hi]

theorem be16_toNat (h l : Byte) : (be16 h l).toNat = h.toNat * 256 + l.toNat := by
  unfold be16
  rw [BitVec.toNat_append, ← Nat.shiftLeft_add_eq_or_of_lt l.isLt, Nat.shiftLeft_eq]

/-! ### Byte sequences -/

@[simp] theorem byteAt_cons_zero (b : Byte) (s : List Byte) : byteAt (b :: s) 0 = b := rfl

@[simp] theorem byteAt_cons_succ (b : Byte) (s : List Byte) (i : Nat) : byteAt (b :: s) (i + 1) = byteAt s i := rfl

theorem byteAt_append_left {s : List Byte} {i : Nat} (t : List Byte) (h : i < s.length) : byteAt (s ++ t) i = byteAt s i := by
  simp [byteAt, List.getD_eq_getElem?_getD, List.getElem?_append_left h]

theorem byteAt_append_right {s : List Byte} {i : Nat} (t : List Byte) (h : s.length ≤ i) :
    byteAt (s ++ t) i = byteAt t (i - s.length) := by
  simp [byteAt, List.getD_eq_getElem?_getD, List.getElem?_append_right h]

theorem byteAt_take {s : List Byte} {i n : Nat} (h : i < n) : byteAt (s.take n) i = byteAt s i := by
  simp [byteAt, List.getD_eq_getElem?_getD, h]

theorem slice_length (s : List Byte) (a b : Nat) : (slice s a b).length = min (b - a) (s.length - a) := by
  simp [slice]

/-! ### The checksum -/

theorem xor8_nil : xor8 [] = 0x00#8 := rfl

theorem xor8_snoc (s : List Byte) (b : Byte) : xor8 (s ++ [b]) = xor8 s ^^^ b := by
  simp [xor8, List.foldl_append]

theorem xor8_foldl (s : List Byte) (a : Byte) : s.foldl (fun acc b => acc ^^^ b) a = a ^^^ xor8 s := by
  induction s generalizing a with
  | nil => simp [xor8]
  | cons b s ih => simp [xor8, ih (a ^^^ b), ih b, BitVec.xor_assoc]

theorem xor8_append (s t : List Byte) : xor8 (s ++ t) = xor8 s ^^^ xor8 t := by
  rw [xor8, List.foldl_append, xor8_foldl t]; rfl

/-! ### The frame -/

theorem checkedBytes_length (op : Byte) (p : List Byte) : (checkedBytes op p).length = p.length + 3 := by
  simp [checkedBytes]

theorem lengthField_toNat {p : List Byte} (h : p.length ≤ maxParams) : (lengthField p).toNat = p.length + frameOverhead := by
  unfold maxParams at h
  simp only [lengthField, frameOverhead, BitVec.toNat_ofNat]
  omega

/-! ### The PC word -/

theorem epcLength_eq (pc : Half) : epcLength pc = pc.toNat / 2048 * 2 := by
  have h : pc.toNat / 2048 < 32 := by have := pc.isLt; omega
  have h31 : pc.toNat / 2048 &&& 31 = pc.toNat / 2048 % 32 := Nat.and_two_pow_sub_one_eq_mod _ 5
  simp [epcLength, Nat.shiftRight_eq_div_pow, h31, Nat.mod_eq_of_lt h]

/-! ### Bus data -/

theorem wordOfBytes_wordBytes (v : Word) :
    wordOfBytes (v.extractLsb' 24 8) (v.extractLsb' 16 8) (v.extractLsb' 8 8) (v.extractLsb' 0 8) = v := by
  unfold wordOfBytes
  apply BitVec.eq_of_getLsbD_eq
  intro i hi
  simp only [BitVec.getLsbD_append, BitVec.getLsbD_extractLsb']
  rcases Nat.lt_or_ge i 8 with h0 | h0
  · simp [h0]
  · rcases Nat.lt_or_ge i 16 with h1 | h1
    · simp [show ¬ i < 8 by omega, show i - 8 < 8 by omega, show 8 + (i - 8) = i by omega]
    · rcases Nat.lt_or_ge i 24 with h2 | h2
      · simp [show ¬ i < 8 by omega, show ¬ i - 8 < 8 by omega, show i - 8 - 8 < 8 by omega, show 16 + (i - 8 - 8) = i by omega]
      · simp [show ¬ i < 8 by omega, show ¬ i - 8 < 8 by omega, show ¬ i - 8 - 8 < 8 by omega,
          show i - 8 - 8 - 8 < 8 by omega, show 24 + (i - 8 - 8 - 8) = i by omega]

end Sys2Proof.Machine
end

