-- ==== Sys2Proof/Laws/State.lean ====
section
/-! SUPPORT. What each unconditional update of Machine/Ops.lean does to each field of State: one lemma per field per update, each true by
definition, so that no proof unfolds a record update. -/

namespace Sys2Proof.Machine

/-! ### raise -/

section
variable (e : Event) (s : State)
@[simp] theorem raise_cfg : (raise e s).cfg = s.cfg := rfl
@[simp] theorem raise_ctrl : (raise e s).ctrl = s.ctrl := rfl
@[simp] theorem raise_sticky : (raise e s).sticky = s.sticky ||| eventBit e := rfl
@[simp] theorem raise_ie : (raise e s).ie = s.ie := rfl
@[simp] theorem raise_txOpcode : (raise e s).txOpcode = s.txOpcode := rfl
@[simp] theorem raise_expOpcode : (raise e s).expOpcode = s.expOpcode := rfl
@[simp] theorem raise_txbuf : (raise e s).txbuf = s.txbuf := rfl
@[simp] theorem raise_txFrame : (raise e s).txFrame = s.txFrame := rfl
@[simp] theorem raise_txIdx : (raise e s).txIdx = s.txIdx := rfl
@[simp] theorem raise_txBusy : (raise e s).txBusy = s.txBusy := rfl
@[simp] theorem raise_rxq : (raise e s).rxq = s.rxq := rfl
@[simp] theorem raise_slot : (raise e s).slot = s.slot := rfl
@[simp] theorem raise_win : (raise e s).win = s.win := rfl
@[simp] theorem raise_skip : (raise e s).skip = s.skip := rfl
@[simp] theorem raise_ending : (raise e s).ending = s.ending := rfl
@[simp] theorem raise_tagq : (raise e s).tagq = s.tagq := rfl
@[simp] theorem raise_cntRxdrop : (raise e s).cntRxdrop = s.cntRxdrop := rfl
@[simp] theorem raise_cntFrames : (raise e s).cntFrames = s.cntFrames := rfl
@[simp] theorem raise_cntTags : (raise e s).cntTags = s.cntTags := rfl
@[simp] theorem raise_txwire : (raise e s).txwire = s.txwire := rfl
@[simp] theorem raise_rdata : (raise e s).rdata = s.rdata := rfl
@[simp] theorem raise_pending : (raise e s).pending = s.pending := rfl
@[simp] theorem raise_turn : (raise e s).turn = s.turn := rfl
@[simp] theorem raise_slack : (raise e s).slack = s.slack := rfl
end

/-! ### clearSticky -/

section
variable (v : Word) (s : State)
@[simp] theorem clearSticky_cfg : (clearSticky v s).cfg = s.cfg := rfl
@[simp] theorem clearSticky_ctrl : (clearSticky v s).ctrl = s.ctrl := rfl
@[simp] theorem clearSticky_sticky : (clearSticky v s).sticky = s.sticky &&& ~~~(v &&& stickyMask) := rfl
@[simp] theorem clearSticky_ie : (clearSticky v s).ie = s.ie := rfl
@[simp] theorem clearSticky_txOpcode : (clearSticky v s).txOpcode = s.txOpcode := rfl
@[simp] theorem clearSticky_expOpcode : (clearSticky v s).expOpcode = s.expOpcode := rfl
@[simp] theorem clearSticky_txbuf : (clearSticky v s).txbuf = s.txbuf := rfl
@[simp] theorem clearSticky_txFrame : (clearSticky v s).txFrame = s.txFrame := rfl
@[simp] theorem clearSticky_txIdx : (clearSticky v s).txIdx = s.txIdx := rfl
@[simp] theorem clearSticky_txBusy : (clearSticky v s).txBusy = s.txBusy := rfl
@[simp] theorem clearSticky_rxq : (clearSticky v s).rxq = s.rxq := rfl
@[simp] theorem clearSticky_slot : (clearSticky v s).slot = s.slot := rfl
@[simp] theorem clearSticky_win : (clearSticky v s).win = s.win := rfl
@[simp] theorem clearSticky_skip : (clearSticky v s).skip = s.skip := rfl
@[simp] theorem clearSticky_ending : (clearSticky v s).ending = s.ending := rfl
@[simp] theorem clearSticky_tagq : (clearSticky v s).tagq = s.tagq := rfl
@[simp] theorem clearSticky_cntRxdrop : (clearSticky v s).cntRxdrop = s.cntRxdrop := rfl
@[simp] theorem clearSticky_cntFrames : (clearSticky v s).cntFrames = s.cntFrames := rfl
@[simp] theorem clearSticky_cntTags : (clearSticky v s).cntTags = s.cntTags := rfl
@[simp] theorem clearSticky_txwire : (clearSticky v s).txwire = s.txwire := rfl
@[simp] theorem clearSticky_rdata : (clearSticky v s).rdata = s.rdata := rfl
@[simp] theorem clearSticky_pending : (clearSticky v s).pending = s.pending := rfl
@[simp] theorem clearSticky_turn : (clearSticky v s).turn = s.turn := rfl
@[simp] theorem clearSticky_slack : (clearSticky v s).slack = s.slack := rfl
end

/-! ### busReturn -/

section
variable (v : Word) (s : State)
@[simp] theorem busReturn_cfg : (busReturn v s).cfg = s.cfg := rfl
@[simp] theorem busReturn_ctrl : (busReturn v s).ctrl = s.ctrl := rfl
@[simp] theorem busReturn_sticky : (busReturn v s).sticky = s.sticky := rfl
@[simp] theorem busReturn_ie : (busReturn v s).ie = s.ie := rfl
@[simp] theorem busReturn_txOpcode : (busReturn v s).txOpcode = s.txOpcode := rfl
@[simp] theorem busReturn_expOpcode : (busReturn v s).expOpcode = s.expOpcode := rfl
@[simp] theorem busReturn_txbuf : (busReturn v s).txbuf = s.txbuf := rfl
@[simp] theorem busReturn_txFrame : (busReturn v s).txFrame = s.txFrame := rfl
@[simp] theorem busReturn_txIdx : (busReturn v s).txIdx = s.txIdx := rfl
@[simp] theorem busReturn_txBusy : (busReturn v s).txBusy = s.txBusy := rfl
@[simp] theorem busReturn_rxq : (busReturn v s).rxq = s.rxq := rfl
@[simp] theorem busReturn_slot : (busReturn v s).slot = s.slot := rfl
@[simp] theorem busReturn_win : (busReturn v s).win = s.win := rfl
@[simp] theorem busReturn_skip : (busReturn v s).skip = s.skip := rfl
@[simp] theorem busReturn_ending : (busReturn v s).ending = s.ending := rfl
@[simp] theorem busReturn_tagq : (busReturn v s).tagq = s.tagq := rfl
@[simp] theorem busReturn_cntRxdrop : (busReturn v s).cntRxdrop = s.cntRxdrop := rfl
@[simp] theorem busReturn_cntFrames : (busReturn v s).cntFrames = s.cntFrames := rfl
@[simp] theorem busReturn_cntTags : (busReturn v s).cntTags = s.cntTags := rfl
@[simp] theorem busReturn_txwire : (busReturn v s).txwire = s.txwire := rfl
@[simp] theorem busReturn_rdata : (busReturn v s).rdata = v := rfl
@[simp] theorem busReturn_pending : (busReturn v s).pending = s.pending := rfl
@[simp] theorem busReturn_turn : (busReturn v s).turn = s.turn := rfl
@[simp] theorem busReturn_slack : (busReturn v s).slack = s.slack := rfl
end

/-! ### setCtrl -/

section
variable (v : Word) (s : State)
@[simp] theorem setCtrl_cfg : (setCtrl v s).cfg = s.cfg := rfl
@[simp] theorem setCtrl_ctrl : (setCtrl v s).ctrl = v := rfl
@[simp] theorem setCtrl_sticky : (setCtrl v s).sticky = s.sticky := rfl
@[simp] theorem setCtrl_ie : (setCtrl v s).ie = s.ie := rfl
@[simp] theorem setCtrl_txOpcode : (setCtrl v s).txOpcode = s.txOpcode := rfl
@[simp] theorem setCtrl_expOpcode : (setCtrl v s).expOpcode = s.expOpcode := rfl
@[simp] theorem setCtrl_txbuf : (setCtrl v s).txbuf = s.txbuf := rfl
@[simp] theorem setCtrl_txFrame : (setCtrl v s).txFrame = s.txFrame := rfl
@[simp] theorem setCtrl_txIdx : (setCtrl v s).txIdx = s.txIdx := rfl
@[simp] theorem setCtrl_txBusy : (setCtrl v s).txBusy = s.txBusy := rfl
@[simp] theorem setCtrl_rxq : (setCtrl v s).rxq = s.rxq := rfl
@[simp] theorem setCtrl_slot : (setCtrl v s).slot = s.slot := rfl
@[simp] theorem setCtrl_win : (setCtrl v s).win = s.win := rfl
@[simp] theorem setCtrl_skip : (setCtrl v s).skip = s.skip := rfl
@[simp] theorem setCtrl_ending : (setCtrl v s).ending = s.ending := rfl
@[simp] theorem setCtrl_tagq : (setCtrl v s).tagq = s.tagq := rfl
@[simp] theorem setCtrl_cntRxdrop : (setCtrl v s).cntRxdrop = s.cntRxdrop := rfl
@[simp] theorem setCtrl_cntFrames : (setCtrl v s).cntFrames = s.cntFrames := rfl
@[simp] theorem setCtrl_cntTags : (setCtrl v s).cntTags = s.cntTags := rfl
@[simp] theorem setCtrl_txwire : (setCtrl v s).txwire = s.txwire := rfl
@[simp] theorem setCtrl_rdata : (setCtrl v s).rdata = s.rdata := rfl
@[simp] theorem setCtrl_pending : (setCtrl v s).pending = s.pending := rfl
@[simp] theorem setCtrl_turn : (setCtrl v s).turn = s.turn := rfl
@[simp] theorem setCtrl_slack : (setCtrl v s).slack = s.slack := rfl
end

/-! ### setIe -/

section
variable (v : Word) (s : State)
@[simp] theorem setIe_cfg : (setIe v s).cfg = s.cfg := rfl
@[simp] theorem setIe_ctrl : (setIe v s).ctrl = s.ctrl := rfl
@[simp] theorem setIe_sticky : (setIe v s).sticky = s.sticky := rfl
@[simp] theorem setIe_ie : (setIe v s).ie = v := rfl
@[simp] theorem setIe_txOpcode : (setIe v s).txOpcode = s.txOpcode := rfl
@[simp] theorem setIe_expOpcode : (setIe v s).expOpcode = s.expOpcode := rfl
@[simp] theorem setIe_txbuf : (setIe v s).txbuf = s.txbuf := rfl
@[simp] theorem setIe_txFrame : (setIe v s).txFrame = s.txFrame := rfl
@[simp] theorem setIe_txIdx : (setIe v s).txIdx = s.txIdx := rfl
@[simp] theorem setIe_txBusy : (setIe v s).txBusy = s.txBusy := rfl
@[simp] theorem setIe_rxq : (setIe v s).rxq = s.rxq := rfl
@[simp] theorem setIe_slot : (setIe v s).slot = s.slot := rfl
@[simp] theorem setIe_win : (setIe v s).win = s.win := rfl
@[simp] theorem setIe_skip : (setIe v s).skip = s.skip := rfl
@[simp] theorem setIe_ending : (setIe v s).ending = s.ending := rfl
@[simp] theorem setIe_tagq : (setIe v s).tagq = s.tagq := rfl
@[simp] theorem setIe_cntRxdrop : (setIe v s).cntRxdrop = s.cntRxdrop := rfl
@[simp] theorem setIe_cntFrames : (setIe v s).cntFrames = s.cntFrames := rfl
@[simp] theorem setIe_cntTags : (setIe v s).cntTags = s.cntTags := rfl
@[simp] theorem setIe_txwire : (setIe v s).txwire = s.txwire := rfl
@[simp] theorem setIe_rdata : (setIe v s).rdata = s.rdata := rfl
@[simp] theorem setIe_pending : (setIe v s).pending = s.pending := rfl
@[simp] theorem setIe_turn : (setIe v s).turn = s.turn := rfl
@[simp] theorem setIe_slack : (setIe v s).slack = s.slack := rfl
end

/-! ### setTxOpcode -/

section
variable (b : Byte) (s : State)
@[simp] theorem setTxOpcode_cfg : (setTxOpcode b s).cfg = s.cfg := rfl
@[simp] theorem setTxOpcode_ctrl : (setTxOpcode b s).ctrl = s.ctrl := rfl
@[simp] theorem setTxOpcode_sticky : (setTxOpcode b s).sticky = s.sticky := rfl
@[simp] theorem setTxOpcode_ie : (setTxOpcode b s).ie = s.ie := rfl
@[simp] theorem setTxOpcode_txOpcode : (setTxOpcode b s).txOpcode = b := rfl
@[simp] theorem setTxOpcode_expOpcode : (setTxOpcode b s).expOpcode = s.expOpcode := rfl
@[simp] theorem setTxOpcode_txbuf : (setTxOpcode b s).txbuf = s.txbuf := rfl
@[simp] theorem setTxOpcode_txFrame : (setTxOpcode b s).txFrame = s.txFrame := rfl
@[simp] theorem setTxOpcode_txIdx : (setTxOpcode b s).txIdx = s.txIdx := rfl
@[simp] theorem setTxOpcode_txBusy : (setTxOpcode b s).txBusy = s.txBusy := rfl
@[simp] theorem setTxOpcode_rxq : (setTxOpcode b s).rxq = s.rxq := rfl
@[simp] theorem setTxOpcode_slot : (setTxOpcode b s).slot = s.slot := rfl
@[simp] theorem setTxOpcode_win : (setTxOpcode b s).win = s.win := rfl
@[simp] theorem setTxOpcode_skip : (setTxOpcode b s).skip = s.skip := rfl
@[simp] theorem setTxOpcode_ending : (setTxOpcode b s).ending = s.ending := rfl
@[simp] theorem setTxOpcode_tagq : (setTxOpcode b s).tagq = s.tagq := rfl
@[simp] theorem setTxOpcode_cntRxdrop : (setTxOpcode b s).cntRxdrop = s.cntRxdrop := rfl
@[simp] theorem setTxOpcode_cntFrames : (setTxOpcode b s).cntFrames = s.cntFrames := rfl
@[simp] theorem setTxOpcode_cntTags : (setTxOpcode b s).cntTags = s.cntTags := rfl
@[simp] theorem setTxOpcode_txwire : (setTxOpcode b s).txwire = s.txwire := rfl
@[simp] theorem setTxOpcode_rdata : (setTxOpcode b s).rdata = s.rdata := rfl
@[simp] theorem setTxOpcode_pending : (setTxOpcode b s).pending = s.pending := rfl
@[simp] theorem setTxOpcode_turn : (setTxOpcode b s).turn = s.turn := rfl
@[simp] theorem setTxOpcode_slack : (setTxOpcode b s).slack = s.slack := rfl
end

/-! ### setExpOpcode -/

section
variable (b : Byte) (s : State)
@[simp] theorem setExpOpcode_cfg : (setExpOpcode b s).cfg = s.cfg := rfl
@[simp] theorem setExpOpcode_ctrl : (setExpOpcode b s).ctrl = s.ctrl := rfl
@[simp] theorem setExpOpcode_sticky : (setExpOpcode b s).sticky = s.sticky := rfl
@[simp] theorem setExpOpcode_ie : (setExpOpcode b s).ie = s.ie := rfl
@[simp] theorem setExpOpcode_txOpcode : (setExpOpcode b s).txOpcode = s.txOpcode := rfl
@[simp] theorem setExpOpcode_expOpcode : (setExpOpcode b s).expOpcode = b := rfl
@[simp] theorem setExpOpcode_txbuf : (setExpOpcode b s).txbuf = s.txbuf := rfl
@[simp] theorem setExpOpcode_txFrame : (setExpOpcode b s).txFrame = s.txFrame := rfl
@[simp] theorem setExpOpcode_txIdx : (setExpOpcode b s).txIdx = s.txIdx := rfl
@[simp] theorem setExpOpcode_txBusy : (setExpOpcode b s).txBusy = s.txBusy := rfl
@[simp] theorem setExpOpcode_rxq : (setExpOpcode b s).rxq = s.rxq := rfl
@[simp] theorem setExpOpcode_slot : (setExpOpcode b s).slot = s.slot := rfl
@[simp] theorem setExpOpcode_win : (setExpOpcode b s).win = s.win := rfl
@[simp] theorem setExpOpcode_skip : (setExpOpcode b s).skip = s.skip := rfl
@[simp] theorem setExpOpcode_ending : (setExpOpcode b s).ending = s.ending := rfl
@[simp] theorem setExpOpcode_tagq : (setExpOpcode b s).tagq = s.tagq := rfl
@[simp] theorem setExpOpcode_cntRxdrop : (setExpOpcode b s).cntRxdrop = s.cntRxdrop := rfl
@[simp] theorem setExpOpcode_cntFrames : (setExpOpcode b s).cntFrames = s.cntFrames := rfl
@[simp] theorem setExpOpcode_cntTags : (setExpOpcode b s).cntTags = s.cntTags := rfl
@[simp] theorem setExpOpcode_txwire : (setExpOpcode b s).txwire = s.txwire := rfl
@[simp] theorem setExpOpcode_rdata : (setExpOpcode b s).rdata = s.rdata := rfl
@[simp] theorem setExpOpcode_pending : (setExpOpcode b s).pending = s.pending := rfl
@[simp] theorem setExpOpcode_turn : (setExpOpcode b s).turn = s.turn := rfl
@[simp] theorem setExpOpcode_slack : (setExpOpcode b s).slack = s.slack := rfl
end

/-! ### setTxbuf -/

section
variable (p : List Byte) (s : State)
@[simp] theorem setTxbuf_cfg : (setTxbuf p s).cfg = s.cfg := rfl
@[simp] theorem setTxbuf_ctrl : (setTxbuf p s).ctrl = s.ctrl := rfl
@[simp] theorem setTxbuf_sticky : (setTxbuf p s).sticky = s.sticky := rfl
@[simp] theorem setTxbuf_ie : (setTxbuf p s).ie = s.ie := rfl
@[simp] theorem setTxbuf_txOpcode : (setTxbuf p s).txOpcode = s.txOpcode := rfl
@[simp] theorem setTxbuf_expOpcode : (setTxbuf p s).expOpcode = s.expOpcode := rfl
@[simp] theorem setTxbuf_txbuf : (setTxbuf p s).txbuf = p := rfl
@[simp] theorem setTxbuf_txFrame : (setTxbuf p s).txFrame = s.txFrame := rfl
@[simp] theorem setTxbuf_txIdx : (setTxbuf p s).txIdx = s.txIdx := rfl
@[simp] theorem setTxbuf_txBusy : (setTxbuf p s).txBusy = s.txBusy := rfl
@[simp] theorem setTxbuf_rxq : (setTxbuf p s).rxq = s.rxq := rfl
@[simp] theorem setTxbuf_slot : (setTxbuf p s).slot = s.slot := rfl
@[simp] theorem setTxbuf_win : (setTxbuf p s).win = s.win := rfl
@[simp] theorem setTxbuf_skip : (setTxbuf p s).skip = s.skip := rfl
@[simp] theorem setTxbuf_ending : (setTxbuf p s).ending = s.ending := rfl
@[simp] theorem setTxbuf_tagq : (setTxbuf p s).tagq = s.tagq := rfl
@[simp] theorem setTxbuf_cntRxdrop : (setTxbuf p s).cntRxdrop = s.cntRxdrop := rfl
@[simp] theorem setTxbuf_cntFrames : (setTxbuf p s).cntFrames = s.cntFrames := rfl
@[simp] theorem setTxbuf_cntTags : (setTxbuf p s).cntTags = s.cntTags := rfl
@[simp] theorem setTxbuf_txwire : (setTxbuf p s).txwire = s.txwire := rfl
@[simp] theorem setTxbuf_rdata : (setTxbuf p s).rdata = s.rdata := rfl
@[simp] theorem setTxbuf_pending : (setTxbuf p s).pending = s.pending := rfl
@[simp] theorem setTxbuf_turn : (setTxbuf p s).turn = s.turn := rfl
@[simp] theorem setTxbuf_slack : (setTxbuf p s).slack = s.slack := rfl
end

/-! ### latchFrame -/

section
variable (s : State)
@[simp] theorem latchFrame_cfg : (latchFrame s).cfg = s.cfg := rfl
@[simp] theorem latchFrame_ctrl : (latchFrame s).ctrl = s.ctrl := rfl
@[simp] theorem latchFrame_sticky : (latchFrame s).sticky = s.sticky := rfl
@[simp] theorem latchFrame_ie : (latchFrame s).ie = s.ie := rfl
@[simp] theorem latchFrame_txOpcode : (latchFrame s).txOpcode = s.txOpcode := rfl
@[simp] theorem latchFrame_expOpcode : (latchFrame s).expOpcode = ackOpcode s.txOpcode := rfl
@[simp] theorem latchFrame_txbuf : (latchFrame s).txbuf = s.txbuf := rfl
@[simp] theorem latchFrame_txFrame : (latchFrame s).txFrame = frameEncode s.txOpcode s.txbuf := rfl
@[simp] theorem latchFrame_txIdx : (latchFrame s).txIdx = 0 := rfl
@[simp] theorem latchFrame_txBusy : (latchFrame s).txBusy = true := rfl
@[simp] theorem latchFrame_rxq : (latchFrame s).rxq = s.rxq := rfl
@[simp] theorem latchFrame_slot : (latchFrame s).slot = s.slot := rfl
@[simp] theorem latchFrame_win : (latchFrame s).win = s.win := rfl
@[simp] theorem latchFrame_skip : (latchFrame s).skip = s.skip := rfl
@[simp] theorem latchFrame_ending : (latchFrame s).ending = s.ending := rfl
@[simp] theorem latchFrame_tagq : (latchFrame s).tagq = s.tagq := rfl
@[simp] theorem latchFrame_cntRxdrop : (latchFrame s).cntRxdrop = s.cntRxdrop := rfl
@[simp] theorem latchFrame_cntFrames : (latchFrame s).cntFrames = s.cntFrames := rfl
@[simp] theorem latchFrame_cntTags : (latchFrame s).cntTags = s.cntTags := rfl
@[simp] theorem latchFrame_txwire : (latchFrame s).txwire = s.txwire := rfl
@[simp] theorem latchFrame_rdata : (latchFrame s).rdata = s.rdata := rfl
@[simp] theorem latchFrame_pending : (latchFrame s).pending = s.pending := rfl
@[simp] theorem latchFrame_turn : (latchFrame s).turn = s.turn := rfl
@[simp] theorem latchFrame_slack : (latchFrame s).slack = s.slack := rfl
end

/-! ### emitByte -/

section
variable (s : State)
@[simp] theorem emitByte_cfg : (emitByte s).cfg = s.cfg := rfl
@[simp] theorem emitByte_ctrl : (emitByte s).ctrl = s.ctrl := rfl
@[simp] theorem emitByte_sticky : (emitByte s).sticky = s.sticky := rfl
@[simp] theorem emitByte_ie : (emitByte s).ie = s.ie := rfl
@[simp] theorem emitByte_txOpcode : (emitByte s).txOpcode = s.txOpcode := rfl
@[simp] theorem emitByte_expOpcode : (emitByte s).expOpcode = s.expOpcode := rfl
@[simp] theorem emitByte_txbuf : (emitByte s).txbuf = s.txbuf := rfl
@[simp] theorem emitByte_txFrame : (emitByte s).txFrame = s.txFrame := rfl
@[simp] theorem emitByte_txIdx : (emitByte s).txIdx = s.txIdx + 1 := rfl
@[simp] theorem emitByte_txBusy : (emitByte s).txBusy = s.txBusy := rfl
@[simp] theorem emitByte_rxq : (emitByte s).rxq = s.rxq := rfl
@[simp] theorem emitByte_slot : (emitByte s).slot = s.slot := rfl
@[simp] theorem emitByte_win : (emitByte s).win = s.win := rfl
@[simp] theorem emitByte_skip : (emitByte s).skip = s.skip := rfl
@[simp] theorem emitByte_ending : (emitByte s).ending = s.ending := rfl
@[simp] theorem emitByte_tagq : (emitByte s).tagq = s.tagq := rfl
@[simp] theorem emitByte_cntRxdrop : (emitByte s).cntRxdrop = s.cntRxdrop := rfl
@[simp] theorem emitByte_cntFrames : (emitByte s).cntFrames = s.cntFrames := rfl
@[simp] theorem emitByte_cntTags : (emitByte s).cntTags = s.cntTags := rfl
@[simp] theorem emitByte_txwire : (emitByte s).txwire = s.txwire ++ [byteAt s.txFrame s.txIdx] := rfl
@[simp] theorem emitByte_rdata : (emitByte s).rdata = s.rdata := rfl
@[simp] theorem emitByte_pending : (emitByte s).pending = s.pending := rfl
@[simp] theorem emitByte_turn : (emitByte s).turn = s.turn := rfl
@[simp] theorem emitByte_slack : (emitByte s).slack = s.slack := rfl
end

/-! ### endTransmit -/

section
variable (s : State)
@[simp] theorem endTransmit_cfg : (endTransmit s).cfg = s.cfg := rfl
@[simp] theorem endTransmit_ctrl : (endTransmit s).ctrl = s.ctrl := rfl
@[simp] theorem endTransmit_sticky : (endTransmit s).sticky = s.sticky := rfl
@[simp] theorem endTransmit_ie : (endTransmit s).ie = s.ie := rfl
@[simp] theorem endTransmit_txOpcode : (endTransmit s).txOpcode = s.txOpcode := rfl
@[simp] theorem endTransmit_expOpcode : (endTransmit s).expOpcode = s.expOpcode := rfl
@[simp] theorem endTransmit_txbuf : (endTransmit s).txbuf = s.txbuf := rfl
@[simp] theorem endTransmit_txFrame : (endTransmit s).txFrame = s.txFrame := rfl
@[simp] theorem endTransmit_txIdx : (endTransmit s).txIdx = s.txIdx := rfl
@[simp] theorem endTransmit_txBusy : (endTransmit s).txBusy = false := rfl
@[simp] theorem endTransmit_rxq : (endTransmit s).rxq = s.rxq := rfl
@[simp] theorem endTransmit_slot : (endTransmit s).slot = s.slot := rfl
@[simp] theorem endTransmit_win : (endTransmit s).win = s.win := rfl
@[simp] theorem endTransmit_skip : (endTransmit s).skip = s.skip := rfl
@[simp] theorem endTransmit_ending : (endTransmit s).ending = s.ending := rfl
@[simp] theorem endTransmit_tagq : (endTransmit s).tagq = s.tagq := rfl
@[simp] theorem endTransmit_cntRxdrop : (endTransmit s).cntRxdrop = s.cntRxdrop := rfl
@[simp] theorem endTransmit_cntFrames : (endTransmit s).cntFrames = s.cntFrames := rfl
@[simp] theorem endTransmit_cntTags : (endTransmit s).cntTags = s.cntTags := rfl
@[simp] theorem endTransmit_txwire : (endTransmit s).txwire = s.txwire := rfl
@[simp] theorem endTransmit_rdata : (endTransmit s).rdata = s.rdata := rfl
@[simp] theorem endTransmit_pending : (endTransmit s).pending = s.pending := rfl
@[simp] theorem endTransmit_turn : (endTransmit s).turn = s.turn := rfl
@[simp] theorem endTransmit_slack : (endTransmit s).slack = s.slack := rfl
end

/-! ### appendRxq -/

section
variable (b : Byte) (s : State)
@[simp] theorem appendRxq_cfg : (appendRxq b s).cfg = s.cfg := rfl
@[simp] theorem appendRxq_ctrl : (appendRxq b s).ctrl = s.ctrl := rfl
@[simp] theorem appendRxq_sticky : (appendRxq b s).sticky = s.sticky := rfl
@[simp] theorem appendRxq_ie : (appendRxq b s).ie = s.ie := rfl
@[simp] theorem appendRxq_txOpcode : (appendRxq b s).txOpcode = s.txOpcode := rfl
@[simp] theorem appendRxq_expOpcode : (appendRxq b s).expOpcode = s.expOpcode := rfl
@[simp] theorem appendRxq_txbuf : (appendRxq b s).txbuf = s.txbuf := rfl
@[simp] theorem appendRxq_txFrame : (appendRxq b s).txFrame = s.txFrame := rfl
@[simp] theorem appendRxq_txIdx : (appendRxq b s).txIdx = s.txIdx := rfl
@[simp] theorem appendRxq_txBusy : (appendRxq b s).txBusy = s.txBusy := rfl
@[simp] theorem appendRxq_rxq : (appendRxq b s).rxq = s.rxq ++ [b] := rfl
@[simp] theorem appendRxq_slot : (appendRxq b s).slot = s.slot := rfl
@[simp] theorem appendRxq_win : (appendRxq b s).win = s.win := rfl
@[simp] theorem appendRxq_skip : (appendRxq b s).skip = s.skip := rfl
@[simp] theorem appendRxq_ending : (appendRxq b s).ending = s.ending := rfl
@[simp] theorem appendRxq_tagq : (appendRxq b s).tagq = s.tagq := rfl
@[simp] theorem appendRxq_cntRxdrop : (appendRxq b s).cntRxdrop = s.cntRxdrop := rfl
@[simp] theorem appendRxq_cntFrames : (appendRxq b s).cntFrames = s.cntFrames := rfl
@[simp] theorem appendRxq_cntTags : (appendRxq b s).cntTags = s.cntTags := rfl
@[simp] theorem appendRxq_txwire : (appendRxq b s).txwire = s.txwire := rfl
@[simp] theorem appendRxq_rdata : (appendRxq b s).rdata = s.rdata := rfl
@[simp] theorem appendRxq_pending : (appendRxq b s).pending = s.pending := rfl
@[simp] theorem appendRxq_turn : (appendRxq b s).turn = s.turn := rfl
@[simp] theorem appendRxq_slack : (appendRxq b s).slack = s.slack := rfl
end

/-! ### dropRxq -/

section
variable (s : State)
@[simp] theorem dropRxq_cfg : (dropRxq s).cfg = s.cfg := rfl
@[simp] theorem dropRxq_ctrl : (dropRxq s).ctrl = s.ctrl := rfl
@[simp] theorem dropRxq_sticky : (dropRxq s).sticky = s.sticky := rfl
@[simp] theorem dropRxq_ie : (dropRxq s).ie = s.ie := rfl
@[simp] theorem dropRxq_txOpcode : (dropRxq s).txOpcode = s.txOpcode := rfl
@[simp] theorem dropRxq_expOpcode : (dropRxq s).expOpcode = s.expOpcode := rfl
@[simp] theorem dropRxq_txbuf : (dropRxq s).txbuf = s.txbuf := rfl
@[simp] theorem dropRxq_txFrame : (dropRxq s).txFrame = s.txFrame := rfl
@[simp] theorem dropRxq_txIdx : (dropRxq s).txIdx = s.txIdx := rfl
@[simp] theorem dropRxq_txBusy : (dropRxq s).txBusy = s.txBusy := rfl
@[simp] theorem dropRxq_rxq : (dropRxq s).rxq = s.rxq.drop 1 := rfl
@[simp] theorem dropRxq_slot : (dropRxq s).slot = s.slot := rfl
@[simp] theorem dropRxq_win : (dropRxq s).win = s.win := rfl
@[simp] theorem dropRxq_skip : (dropRxq s).skip = s.skip := rfl
@[simp] theorem dropRxq_ending : (dropRxq s).ending = s.ending := rfl
@[simp] theorem dropRxq_tagq : (dropRxq s).tagq = s.tagq := rfl
@[simp] theorem dropRxq_cntRxdrop : (dropRxq s).cntRxdrop = s.cntRxdrop + 1#32 := rfl
@[simp] theorem dropRxq_cntFrames : (dropRxq s).cntFrames = s.cntFrames := rfl
@[simp] theorem dropRxq_cntTags : (dropRxq s).cntTags = s.cntTags := rfl
@[simp] theorem dropRxq_txwire : (dropRxq s).txwire = s.txwire := rfl
@[simp] theorem dropRxq_rdata : (dropRxq s).rdata = s.rdata := rfl
@[simp] theorem dropRxq_pending : (dropRxq s).pending = s.pending := rfl
@[simp] theorem dropRxq_turn : (dropRxq s).turn = s.turn := rfl
@[simp] theorem dropRxq_slack : (dropRxq s).slack = s.slack := rfl
end

/-! ### clearRxq -/

section
variable (s : State)
@[simp] theorem clearRxq_cfg : (clearRxq s).cfg = s.cfg := rfl
@[simp] theorem clearRxq_ctrl : (clearRxq s).ctrl = s.ctrl := rfl
@[simp] theorem clearRxq_sticky : (clearRxq s).sticky = s.sticky := rfl
@[simp] theorem clearRxq_ie : (clearRxq s).ie = s.ie := rfl
@[simp] theorem clearRxq_txOpcode : (clearRxq s).txOpcode = s.txOpcode := rfl
@[simp] theorem clearRxq_expOpcode : (clearRxq s).expOpcode = s.expOpcode := rfl
@[simp] theorem clearRxq_txbuf : (clearRxq s).txbuf = s.txbuf := rfl
@[simp] theorem clearRxq_txFrame : (clearRxq s).txFrame = s.txFrame := rfl
@[simp] theorem clearRxq_txIdx : (clearRxq s).txIdx = s.txIdx := rfl
@[simp] theorem clearRxq_txBusy : (clearRxq s).txBusy = s.txBusy := rfl
@[simp] theorem clearRxq_rxq : (clearRxq s).rxq = [] := rfl
@[simp] theorem clearRxq_slot : (clearRxq s).slot = s.slot := rfl
@[simp] theorem clearRxq_win : (clearRxq s).win = s.win := rfl
@[simp] theorem clearRxq_skip : (clearRxq s).skip = s.skip := rfl
@[simp] theorem clearRxq_ending : (clearRxq s).ending = s.ending := rfl
@[simp] theorem clearRxq_tagq : (clearRxq s).tagq = s.tagq := rfl
@[simp] theorem clearRxq_cntRxdrop : (clearRxq s).cntRxdrop = s.cntRxdrop := rfl
@[simp] theorem clearRxq_cntFrames : (clearRxq s).cntFrames = s.cntFrames := rfl
@[simp] theorem clearRxq_cntTags : (clearRxq s).cntTags = s.cntTags := rfl
@[simp] theorem clearRxq_txwire : (clearRxq s).txwire = s.txwire := rfl
@[simp] theorem clearRxq_rdata : (clearRxq s).rdata = s.rdata := rfl
@[simp] theorem clearRxq_pending : (clearRxq s).pending = s.pending := rfl
@[simp] theorem clearRxq_turn : (clearRxq s).turn = s.turn := rfl
@[simp] theorem clearRxq_slack : (clearRxq s).slack = s.slack := rfl
end

/-! ### deliver -/

section
variable (f : List Byte) (c : Byte) (k e : Bool) (s : State)
@[simp] theorem deliver_cfg : (deliver f c k e s).cfg = s.cfg := rfl
@[simp] theorem deliver_ctrl : (deliver f c k e s).ctrl = s.ctrl := rfl
@[simp] theorem deliver_sticky : (deliver f c k e s).sticky = s.sticky := rfl
@[simp] theorem deliver_ie : (deliver f c k e s).ie = s.ie := rfl
@[simp] theorem deliver_txOpcode : (deliver f c k e s).txOpcode = s.txOpcode := rfl
@[simp] theorem deliver_expOpcode : (deliver f c k e s).expOpcode = s.expOpcode := rfl
@[simp] theorem deliver_txbuf : (deliver f c k e s).txbuf = s.txbuf := rfl
@[simp] theorem deliver_txFrame : (deliver f c k e s).txFrame = s.txFrame := rfl
@[simp] theorem deliver_txIdx : (deliver f c k e s).txIdx = s.txIdx := rfl
@[simp] theorem deliver_txBusy : (deliver f c k e s).txBusy = s.txBusy := rfl
@[simp] theorem deliver_rxq : (deliver f c k e s).rxq = s.rxq.drop f.length := rfl
@[simp] theorem deliver_slot : (deliver f c k e s).slot = slotOf f c k e := rfl
@[simp] theorem deliver_win : (deliver f c k e s).win = s.win := rfl
@[simp] theorem deliver_skip : (deliver f c k e s).skip = s.skip := rfl
@[simp] theorem deliver_ending : (deliver f c k e s).ending = s.ending := rfl
@[simp] theorem deliver_tagq : (deliver f c k e s).tagq = s.tagq := rfl
@[simp] theorem deliver_cntRxdrop : (deliver f c k e s).cntRxdrop = s.cntRxdrop := rfl
@[simp] theorem deliver_cntFrames : (deliver f c k e s).cntFrames = s.cntFrames + 1#32 := rfl
@[simp] theorem deliver_cntTags : (deliver f c k e s).cntTags = s.cntTags := rfl
@[simp] theorem deliver_txwire : (deliver f c k e s).txwire = s.txwire := rfl
@[simp] theorem deliver_rdata : (deliver f c k e s).rdata = s.rdata := rfl
@[simp] theorem deliver_pending : (deliver f c k e s).pending = s.pending := rfl
@[simp] theorem deliver_turn : (deliver f c k e s).turn = s.turn := rfl
@[simp] theorem deliver_slack : (deliver f c k e s).slack = s.slack := rfl
end

/-! ### emptySlot -/

section
variable (s : State)
@[simp] theorem emptySlot_cfg : (emptySlot s).cfg = s.cfg := rfl
@[simp] theorem emptySlot_ctrl : (emptySlot s).ctrl = s.ctrl := rfl
@[simp] theorem emptySlot_sticky : (emptySlot s).sticky = s.sticky := rfl
@[simp] theorem emptySlot_ie : (emptySlot s).ie = s.ie := rfl
@[simp] theorem emptySlot_txOpcode : (emptySlot s).txOpcode = s.txOpcode := rfl
@[simp] theorem emptySlot_expOpcode : (emptySlot s).expOpcode = s.expOpcode := rfl
@[simp] theorem emptySlot_txbuf : (emptySlot s).txbuf = s.txbuf := rfl
@[simp] theorem emptySlot_txFrame : (emptySlot s).txFrame = s.txFrame := rfl
@[simp] theorem emptySlot_txIdx : (emptySlot s).txIdx = s.txIdx := rfl
@[simp] theorem emptySlot_txBusy : (emptySlot s).txBusy = s.txBusy := rfl
@[simp] theorem emptySlot_rxq : (emptySlot s).rxq = s.rxq := rfl
@[simp] theorem emptySlot_slot : (emptySlot s).slot = Slot.empty := rfl
@[simp] theorem emptySlot_win : (emptySlot s).win = s.win := rfl
@[simp] theorem emptySlot_skip : (emptySlot s).skip = s.skip := rfl
@[simp] theorem emptySlot_ending : (emptySlot s).ending = s.ending := rfl
@[simp] theorem emptySlot_tagq : (emptySlot s).tagq = s.tagq := rfl
@[simp] theorem emptySlot_cntRxdrop : (emptySlot s).cntRxdrop = s.cntRxdrop := rfl
@[simp] theorem emptySlot_cntFrames : (emptySlot s).cntFrames = s.cntFrames := rfl
@[simp] theorem emptySlot_cntTags : (emptySlot s).cntTags = s.cntTags := rfl
@[simp] theorem emptySlot_txwire : (emptySlot s).txwire = s.txwire := rfl
@[simp] theorem emptySlot_rdata : (emptySlot s).rdata = s.rdata := rfl
@[simp] theorem emptySlot_pending : (emptySlot s).pending = s.pending := rfl
@[simp] theorem emptySlot_turn : (emptySlot s).turn = s.turn := rfl
@[simp] theorem emptySlot_slack : (emptySlot s).slack = s.slack := rfl
end

/-! ### advanceRidx -/

section
variable (s : State)
@[simp] theorem advanceRidx_cfg : (advanceRidx s).cfg = s.cfg := rfl
@[simp] theorem advanceRidx_ctrl : (advanceRidx s).ctrl = s.ctrl := rfl
@[simp] theorem advanceRidx_sticky : (advanceRidx s).sticky = s.sticky := rfl
@[simp] theorem advanceRidx_ie : (advanceRidx s).ie = s.ie := rfl
@[simp] theorem advanceRidx_txOpcode : (advanceRidx s).txOpcode = s.txOpcode := rfl
@[simp] theorem advanceRidx_expOpcode : (advanceRidx s).expOpcode = s.expOpcode := rfl
@[simp] theorem advanceRidx_txbuf : (advanceRidx s).txbuf = s.txbuf := rfl
@[simp] theorem advanceRidx_txFrame : (advanceRidx s).txFrame = s.txFrame := rfl
@[simp] theorem advanceRidx_txIdx : (advanceRidx s).txIdx = s.txIdx := rfl
@[simp] theorem advanceRidx_txBusy : (advanceRidx s).txBusy = s.txBusy := rfl
@[simp] theorem advanceRidx_rxq : (advanceRidx s).rxq = s.rxq := rfl
@[simp] theorem advanceRidx_slot : (advanceRidx s).slot = { s.slot with ridx := s.slot.ridx + 1#16 } := rfl
@[simp] theorem advanceRidx_win : (advanceRidx s).win = s.win := rfl
@[simp] theorem advanceRidx_skip : (advanceRidx s).skip = s.skip := rfl
@[simp] theorem advanceRidx_ending : (advanceRidx s).ending = s.ending := rfl
@[simp] theorem advanceRidx_tagq : (advanceRidx s).tagq = s.tagq := rfl
@[simp] theorem advanceRidx_cntRxdrop : (advanceRidx s).cntRxdrop = s.cntRxdrop := rfl
@[simp] theorem advanceRidx_cntFrames : (advanceRidx s).cntFrames = s.cntFrames := rfl
@[simp] theorem advanceRidx_cntTags : (advanceRidx s).cntTags = s.cntTags := rfl
@[simp] theorem advanceRidx_txwire : (advanceRidx s).txwire = s.txwire := rfl
@[simp] theorem advanceRidx_rdata : (advanceRidx s).rdata = s.rdata := rfl
@[simp] theorem advanceRidx_pending : (advanceRidx s).pending = s.pending := rfl
@[simp] theorem advanceRidx_turn : (advanceRidx s).turn = s.turn := rfl
@[simp] theorem advanceRidx_slack : (advanceRidx s).slack = s.slack := rfl
end

/-! ### takeTrailerByte -/

section
variable (s : State)
@[simp] theorem takeTrailerByte_cfg : (takeTrailerByte s).cfg = s.cfg := rfl
@[simp] theorem takeTrailerByte_ctrl : (takeTrailerByte s).ctrl = s.ctrl := rfl
@[simp] theorem takeTrailerByte_sticky : (takeTrailerByte s).sticky = s.sticky := rfl
@[simp] theorem takeTrailerByte_ie : (takeTrailerByte s).ie = s.ie := rfl
@[simp] theorem takeTrailerByte_txOpcode : (takeTrailerByte s).txOpcode = s.txOpcode := rfl
@[simp] theorem takeTrailerByte_expOpcode : (takeTrailerByte s).expOpcode = s.expOpcode := rfl
@[simp] theorem takeTrailerByte_txbuf : (takeTrailerByte s).txbuf = s.txbuf := rfl
@[simp] theorem takeTrailerByte_txFrame : (takeTrailerByte s).txFrame = s.txFrame := rfl
@[simp] theorem takeTrailerByte_txIdx : (takeTrailerByte s).txIdx = s.txIdx := rfl
@[simp] theorem takeTrailerByte_txBusy : (takeTrailerByte s).txBusy = s.txBusy := rfl
@[simp] theorem takeTrailerByte_rxq : (takeTrailerByte s).rxq = s.rxq := rfl
@[simp] theorem takeTrailerByte_slot : (takeTrailerByte s).slot = s.slot := rfl
@[simp] theorem takeTrailerByte_win : (takeTrailerByte s).win = s.win := rfl
@[simp] theorem takeTrailerByte_skip : (takeTrailerByte s).skip = s.skip - 1 := rfl
@[simp] theorem takeTrailerByte_ending : (takeTrailerByte s).ending = s.ending := rfl
@[simp] theorem takeTrailerByte_tagq : (takeTrailerByte s).tagq = s.tagq := rfl
@[simp] theorem takeTrailerByte_cntRxdrop : (takeTrailerByte s).cntRxdrop = s.cntRxdrop := rfl
@[simp] theorem takeTrailerByte_cntFrames : (takeTrailerByte s).cntFrames = s.cntFrames := rfl
@[simp] theorem takeTrailerByte_cntTags : (takeTrailerByte s).cntTags = s.cntTags := rfl
@[simp] theorem takeTrailerByte_txwire : (takeTrailerByte s).txwire = s.txwire := rfl
@[simp] theorem takeTrailerByte_rdata : (takeTrailerByte s).rdata = s.rdata := rfl
@[simp] theorem takeTrailerByte_pending : (takeTrailerByte s).pending = s.pending := rfl
@[simp] theorem takeTrailerByte_turn : (takeTrailerByte s).turn = s.turn := rfl
@[simp] theorem takeTrailerByte_slack : (takeTrailerByte s).slack = s.slack := rfl
end

/-! ### appendWin -/

section
variable (b : Byte) (s : State)
@[simp] theorem appendWin_cfg : (appendWin b s).cfg = s.cfg := rfl
@[simp] theorem appendWin_ctrl : (appendWin b s).ctrl = s.ctrl := rfl
@[simp] theorem appendWin_sticky : (appendWin b s).sticky = s.sticky := rfl
@[simp] theorem appendWin_ie : (appendWin b s).ie = s.ie := rfl
@[simp] theorem appendWin_txOpcode : (appendWin b s).txOpcode = s.txOpcode := rfl
@[simp] theorem appendWin_expOpcode : (appendWin b s).expOpcode = s.expOpcode := rfl
@[simp] theorem appendWin_txbuf : (appendWin b s).txbuf = s.txbuf := rfl
@[simp] theorem appendWin_txFrame : (appendWin b s).txFrame = s.txFrame := rfl
@[simp] theorem appendWin_txIdx : (appendWin b s).txIdx = s.txIdx := rfl
@[simp] theorem appendWin_txBusy : (appendWin b s).txBusy = s.txBusy := rfl
@[simp] theorem appendWin_rxq : (appendWin b s).rxq = s.rxq := rfl
@[simp] theorem appendWin_slot : (appendWin b s).slot = s.slot := rfl
@[simp] theorem appendWin_win : (appendWin b s).win = s.win ++ [b] := rfl
@[simp] theorem appendWin_skip : (appendWin b s).skip = s.skip := rfl
@[simp] theorem appendWin_ending : (appendWin b s).ending = s.ending := rfl
@[simp] theorem appendWin_tagq : (appendWin b s).tagq = s.tagq := rfl
@[simp] theorem appendWin_cntRxdrop : (appendWin b s).cntRxdrop = s.cntRxdrop := rfl
@[simp] theorem appendWin_cntFrames : (appendWin b s).cntFrames = s.cntFrames := rfl
@[simp] theorem appendWin_cntTags : (appendWin b s).cntTags = s.cntTags := rfl
@[simp] theorem appendWin_txwire : (appendWin b s).txwire = s.txwire := rfl
@[simp] theorem appendWin_rdata : (appendWin b s).rdata = s.rdata := rfl
@[simp] theorem appendWin_pending : (appendWin b s).pending = s.pending := rfl
@[simp] theorem appendWin_turn : (appendWin b s).turn = s.turn := rfl
@[simp] theorem appendWin_slack : (appendWin b s).slack = s.slack := rfl
end

/-! ### dropWin -/

section
variable (s : State)
@[simp] theorem dropWin_cfg : (dropWin s).cfg = s.cfg := rfl
@[simp] theorem dropWin_ctrl : (dropWin s).ctrl = s.ctrl := rfl
@[simp] theorem dropWin_sticky : (dropWin s).sticky = s.sticky := rfl
@[simp] theorem dropWin_ie : (dropWin s).ie = s.ie := rfl
@[simp] theorem dropWin_txOpcode : (dropWin s).txOpcode = s.txOpcode := rfl
@[simp] theorem dropWin_expOpcode : (dropWin s).expOpcode = s.expOpcode := rfl
@[simp] theorem dropWin_txbuf : (dropWin s).txbuf = s.txbuf := rfl
@[simp] theorem dropWin_txFrame : (dropWin s).txFrame = s.txFrame := rfl
@[simp] theorem dropWin_txIdx : (dropWin s).txIdx = s.txIdx := rfl
@[simp] theorem dropWin_txBusy : (dropWin s).txBusy = s.txBusy := rfl
@[simp] theorem dropWin_rxq : (dropWin s).rxq = s.rxq := rfl
@[simp] theorem dropWin_slot : (dropWin s).slot = s.slot := rfl
@[simp] theorem dropWin_win : (dropWin s).win = s.win.drop 1 := rfl
@[simp] theorem dropWin_skip : (dropWin s).skip = s.skip := rfl
@[simp] theorem dropWin_ending : (dropWin s).ending = s.ending := rfl
@[simp] theorem dropWin_tagq : (dropWin s).tagq = s.tagq := rfl
@[simp] theorem dropWin_cntRxdrop : (dropWin s).cntRxdrop = s.cntRxdrop := rfl
@[simp] theorem dropWin_cntFrames : (dropWin s).cntFrames = s.cntFrames := rfl
@[simp] theorem dropWin_cntTags : (dropWin s).cntTags = s.cntTags := rfl
@[simp] theorem dropWin_txwire : (dropWin s).txwire = s.txwire := rfl
@[simp] theorem dropWin_rdata : (dropWin s).rdata = s.rdata := rfl
@[simp] theorem dropWin_pending : (dropWin s).pending = s.pending := rfl
@[simp] theorem dropWin_turn : (dropWin s).turn = s.turn := rfl
@[simp] theorem dropWin_slack : (dropWin s).slack = s.slack := rfl
end

/-! ### emitRecord -/

section
variable (r : TagRecord) (s : State)
@[simp] theorem emitRecord_cfg : (emitRecord r s).cfg = s.cfg := rfl
@[simp] theorem emitRecord_ctrl : (emitRecord r s).ctrl = s.ctrl := rfl
@[simp] theorem emitRecord_sticky : (emitRecord r s).sticky = s.sticky := rfl
@[simp] theorem emitRecord_ie : (emitRecord r s).ie = s.ie := rfl
@[simp] theorem emitRecord_txOpcode : (emitRecord r s).txOpcode = s.txOpcode := rfl
@[simp] theorem emitRecord_expOpcode : (emitRecord r s).expOpcode = s.expOpcode := rfl
@[simp] theorem emitRecord_txbuf : (emitRecord r s).txbuf = s.txbuf := rfl
@[simp] theorem emitRecord_txFrame : (emitRecord r s).txFrame = s.txFrame := rfl
@[simp] theorem emitRecord_txIdx : (emitRecord r s).txIdx = s.txIdx := rfl
@[simp] theorem emitRecord_txBusy : (emitRecord r s).txBusy = s.txBusy := rfl
@[simp] theorem emitRecord_rxq : (emitRecord r s).rxq = s.rxq := rfl
@[simp] theorem emitRecord_slot : (emitRecord r s).slot = s.slot := rfl
@[simp] theorem emitRecord_win : (emitRecord r s).win = s.win.drop (min s.win.length (recordSpan r.epcLen)) := rfl
@[simp] theorem emitRecord_skip : (emitRecord r s).skip = recordSpan r.epcLen - min s.win.length (recordSpan r.epcLen) := rfl
@[simp] theorem emitRecord_ending : (emitRecord r s).ending = s.ending := rfl
@[simp] theorem emitRecord_tagq : (emitRecord r s).tagq = s.tagq ++ [r] := rfl
@[simp] theorem emitRecord_cntRxdrop : (emitRecord r s).cntRxdrop = s.cntRxdrop := rfl
@[simp] theorem emitRecord_cntFrames : (emitRecord r s).cntFrames = s.cntFrames := rfl
@[simp] theorem emitRecord_cntTags : (emitRecord r s).cntTags = s.cntTags + 1#32 := rfl
@[simp] theorem emitRecord_txwire : (emitRecord r s).txwire = s.txwire := rfl
@[simp] theorem emitRecord_rdata : (emitRecord r s).rdata = s.rdata := rfl
@[simp] theorem emitRecord_pending : (emitRecord r s).pending = s.pending := rfl
@[simp] theorem emitRecord_turn : (emitRecord r s).turn = s.turn := rfl
@[simp] theorem emitRecord_slack : (emitRecord r s).slack = s.slack := rfl
end

/-! ### endBurst -/

section
variable (s : State)
@[simp] theorem endBurst_cfg : (endBurst s).cfg = s.cfg := rfl
@[simp] theorem endBurst_ctrl : (endBurst s).ctrl = s.ctrl := rfl
@[simp] theorem endBurst_sticky : (endBurst s).sticky = s.sticky := rfl
@[simp] theorem endBurst_ie : (endBurst s).ie = s.ie := rfl
@[simp] theorem endBurst_txOpcode : (endBurst s).txOpcode = s.txOpcode := rfl
@[simp] theorem endBurst_expOpcode : (endBurst s).expOpcode = s.expOpcode := rfl
@[simp] theorem endBurst_txbuf : (endBurst s).txbuf = s.txbuf := rfl
@[simp] theorem endBurst_txFrame : (endBurst s).txFrame = s.txFrame := rfl
@[simp] theorem endBurst_txIdx : (endBurst s).txIdx = s.txIdx := rfl
@[simp] theorem endBurst_txBusy : (endBurst s).txBusy = s.txBusy := rfl
@[simp] theorem endBurst_rxq : (endBurst s).rxq = s.rxq := rfl
@[simp] theorem endBurst_slot : (endBurst s).slot = s.slot := rfl
@[simp] theorem endBurst_win : (endBurst s).win = s.win := rfl
@[simp] theorem endBurst_skip : (endBurst s).skip = 0 := rfl
@[simp] theorem endBurst_ending : (endBurst s).ending = false := rfl
@[simp] theorem endBurst_tagq : (endBurst s).tagq = s.tagq := rfl
@[simp] theorem endBurst_cntRxdrop : (endBurst s).cntRxdrop = s.cntRxdrop := rfl
@[simp] theorem endBurst_cntFrames : (endBurst s).cntFrames = s.cntFrames := rfl
@[simp] theorem endBurst_cntTags : (endBurst s).cntTags = s.cntTags := rfl
@[simp] theorem endBurst_txwire : (endBurst s).txwire = s.txwire := rfl
@[simp] theorem endBurst_rdata : (endBurst s).rdata = s.rdata := rfl
@[simp] theorem endBurst_pending : (endBurst s).pending = s.pending := rfl
@[simp] theorem endBurst_turn : (endBurst s).turn = s.turn := rfl
@[simp] theorem endBurst_slack : (endBurst s).slack = s.slack := rfl
end

/-! ### beginEnding -/

section
variable (s : State)
@[simp] theorem beginEnding_cfg : (beginEnding s).cfg = s.cfg := rfl
@[simp] theorem beginEnding_ctrl : (beginEnding s).ctrl = s.ctrl &&& ~~~0x00000002#32 := rfl
@[simp] theorem beginEnding_sticky : (beginEnding s).sticky = s.sticky := rfl
@[simp] theorem beginEnding_ie : (beginEnding s).ie = s.ie := rfl
@[simp] theorem beginEnding_txOpcode : (beginEnding s).txOpcode = s.txOpcode := rfl
@[simp] theorem beginEnding_expOpcode : (beginEnding s).expOpcode = s.expOpcode := rfl
@[simp] theorem beginEnding_txbuf : (beginEnding s).txbuf = s.txbuf := rfl
@[simp] theorem beginEnding_txFrame : (beginEnding s).txFrame = s.txFrame := rfl
@[simp] theorem beginEnding_txIdx : (beginEnding s).txIdx = s.txIdx := rfl
@[simp] theorem beginEnding_txBusy : (beginEnding s).txBusy = s.txBusy := rfl
@[simp] theorem beginEnding_rxq : (beginEnding s).rxq = s.rxq := rfl
@[simp] theorem beginEnding_slot : (beginEnding s).slot = s.slot := rfl
@[simp] theorem beginEnding_win : (beginEnding s).win = s.win := rfl
@[simp] theorem beginEnding_skip : (beginEnding s).skip = s.skip := rfl
@[simp] theorem beginEnding_ending : (beginEnding s).ending = true := rfl
@[simp] theorem beginEnding_tagq : (beginEnding s).tagq = s.tagq := rfl
@[simp] theorem beginEnding_cntRxdrop : (beginEnding s).cntRxdrop = s.cntRxdrop := rfl
@[simp] theorem beginEnding_cntFrames : (beginEnding s).cntFrames = s.cntFrames := rfl
@[simp] theorem beginEnding_cntTags : (beginEnding s).cntTags = s.cntTags := rfl
@[simp] theorem beginEnding_txwire : (beginEnding s).txwire = s.txwire := rfl
@[simp] theorem beginEnding_rdata : (beginEnding s).rdata = s.rdata := rfl
@[simp] theorem beginEnding_pending : (beginEnding s).pending = s.pending := rfl
@[simp] theorem beginEnding_turn : (beginEnding s).turn = s.turn := rfl
@[simp] theorem beginEnding_slack : (beginEnding s).slack = s.slack := rfl
end

/-! ### dropRecord -/

section
variable (s : State)
@[simp] theorem dropRecord_cfg : (dropRecord s).cfg = s.cfg := rfl
@[simp] theorem dropRecord_ctrl : (dropRecord s).ctrl = s.ctrl := rfl
@[simp] theorem dropRecord_sticky : (dropRecord s).sticky = s.sticky := rfl
@[simp] theorem dropRecord_ie : (dropRecord s).ie = s.ie := rfl
@[simp] theorem dropRecord_txOpcode : (dropRecord s).txOpcode = s.txOpcode := rfl
@[simp] theorem dropRecord_expOpcode : (dropRecord s).expOpcode = s.expOpcode := rfl
@[simp] theorem dropRecord_txbuf : (dropRecord s).txbuf = s.txbuf := rfl
@[simp] theorem dropRecord_txFrame : (dropRecord s).txFrame = s.txFrame := rfl
@[simp] theorem dropRecord_txIdx : (dropRecord s).txIdx = s.txIdx := rfl
@[simp] theorem dropRecord_txBusy : (dropRecord s).txBusy = s.txBusy := rfl
@[simp] theorem dropRecord_rxq : (dropRecord s).rxq = s.rxq := rfl
@[simp] theorem dropRecord_slot : (dropRecord s).slot = s.slot := rfl
@[simp] theorem dropRecord_win : (dropRecord s).win = s.win := rfl
@[simp] theorem dropRecord_skip : (dropRecord s).skip = s.skip := rfl
@[simp] theorem dropRecord_ending : (dropRecord s).ending = s.ending := rfl
@[simp] theorem dropRecord_tagq : (dropRecord s).tagq = s.tagq.drop 1 := rfl
@[simp] theorem dropRecord_cntRxdrop : (dropRecord s).cntRxdrop = s.cntRxdrop := rfl
@[simp] theorem dropRecord_cntFrames : (dropRecord s).cntFrames = s.cntFrames := rfl
@[simp] theorem dropRecord_cntTags : (dropRecord s).cntTags = s.cntTags := rfl
@[simp] theorem dropRecord_txwire : (dropRecord s).txwire = s.txwire := rfl
@[simp] theorem dropRecord_rdata : (dropRecord s).rdata = s.rdata := rfl
@[simp] theorem dropRecord_pending : (dropRecord s).pending = s.pending := rfl
@[simp] theorem dropRecord_turn : (dropRecord s).turn = s.turn := rfl
@[simp] theorem dropRecord_slack : (dropRecord s).slack = s.slack := rfl
end

/-! ### tagFlush -/

section
variable (s : State)
@[simp] theorem tagFlush_cfg : (tagFlush s).cfg = s.cfg := rfl
@[simp] theorem tagFlush_ctrl : (tagFlush s).ctrl = s.ctrl := rfl
@[simp] theorem tagFlush_sticky : (tagFlush s).sticky = s.sticky := rfl
@[simp] theorem tagFlush_ie : (tagFlush s).ie = s.ie := rfl
@[simp] theorem tagFlush_txOpcode : (tagFlush s).txOpcode = s.txOpcode := rfl
@[simp] theorem tagFlush_expOpcode : (tagFlush s).expOpcode = s.expOpcode := rfl
@[simp] theorem tagFlush_txbuf : (tagFlush s).txbuf = s.txbuf := rfl
@[simp] theorem tagFlush_txFrame : (tagFlush s).txFrame = s.txFrame := rfl
@[simp] theorem tagFlush_txIdx : (tagFlush s).txIdx = s.txIdx := rfl
@[simp] theorem tagFlush_txBusy : (tagFlush s).txBusy = s.txBusy := rfl
@[simp] theorem tagFlush_rxq : (tagFlush s).rxq = s.rxq := rfl
@[simp] theorem tagFlush_slot : (tagFlush s).slot = s.slot := rfl
@[simp] theorem tagFlush_win : (tagFlush s).win = [] := rfl
@[simp] theorem tagFlush_skip : (tagFlush s).skip = 0 := rfl
@[simp] theorem tagFlush_ending : (tagFlush s).ending = false := rfl
@[simp] theorem tagFlush_tagq : (tagFlush s).tagq = [] := rfl
@[simp] theorem tagFlush_cntRxdrop : (tagFlush s).cntRxdrop = s.cntRxdrop := rfl
@[simp] theorem tagFlush_cntFrames : (tagFlush s).cntFrames = s.cntFrames := rfl
@[simp] theorem tagFlush_cntTags : (tagFlush s).cntTags = s.cntTags := rfl
@[simp] theorem tagFlush_txwire : (tagFlush s).txwire = s.txwire := rfl
@[simp] theorem tagFlush_rdata : (tagFlush s).rdata = s.rdata := rfl
@[simp] theorem tagFlush_pending : (tagFlush s).pending = s.pending := rfl
@[simp] theorem tagFlush_turn : (tagFlush s).turn = s.turn := rfl
@[simp] theorem tagFlush_slack : (tagFlush s).slack = s.slack := rfl
end

/-! ### cntClr -/

section
variable (s : State)
@[simp] theorem cntClr_cfg : (cntClr s).cfg = s.cfg := rfl
@[simp] theorem cntClr_ctrl : (cntClr s).ctrl = s.ctrl := rfl
@[simp] theorem cntClr_sticky : (cntClr s).sticky = s.sticky := rfl
@[simp] theorem cntClr_ie : (cntClr s).ie = s.ie := rfl
@[simp] theorem cntClr_txOpcode : (cntClr s).txOpcode = s.txOpcode := rfl
@[simp] theorem cntClr_expOpcode : (cntClr s).expOpcode = s.expOpcode := rfl
@[simp] theorem cntClr_txbuf : (cntClr s).txbuf = s.txbuf := rfl
@[simp] theorem cntClr_txFrame : (cntClr s).txFrame = s.txFrame := rfl
@[simp] theorem cntClr_txIdx : (cntClr s).txIdx = s.txIdx := rfl
@[simp] theorem cntClr_txBusy : (cntClr s).txBusy = s.txBusy := rfl
@[simp] theorem cntClr_rxq : (cntClr s).rxq = s.rxq := rfl
@[simp] theorem cntClr_slot : (cntClr s).slot = s.slot := rfl
@[simp] theorem cntClr_win : (cntClr s).win = s.win := rfl
@[simp] theorem cntClr_skip : (cntClr s).skip = s.skip := rfl
@[simp] theorem cntClr_ending : (cntClr s).ending = s.ending := rfl
@[simp] theorem cntClr_tagq : (cntClr s).tagq = s.tagq := rfl
@[simp] theorem cntClr_cntRxdrop : (cntClr s).cntRxdrop = 0x00000000#32 := rfl
@[simp] theorem cntClr_cntFrames : (cntClr s).cntFrames = 0x00000000#32 := rfl
@[simp] theorem cntClr_cntTags : (cntClr s).cntTags = 0x00000000#32 := rfl
@[simp] theorem cntClr_txwire : (cntClr s).txwire = s.txwire := rfl
@[simp] theorem cntClr_rdata : (cntClr s).rdata = s.rdata := rfl
@[simp] theorem cntClr_pending : (cntClr s).pending = s.pending := rfl
@[simp] theorem cntClr_turn : (cntClr s).turn = s.turn := rfl
@[simp] theorem cntClr_slack : (cntClr s).slack = s.slack := rfl
end

/-! ### dropPending -/

section
variable (s : State)
@[simp] theorem dropPending_cfg : (dropPending s).cfg = s.cfg := rfl
@[simp] theorem dropPending_ctrl : (dropPending s).ctrl = s.ctrl := rfl
@[simp] theorem dropPending_sticky : (dropPending s).sticky = s.sticky := rfl
@[simp] theorem dropPending_ie : (dropPending s).ie = s.ie := rfl
@[simp] theorem dropPending_txOpcode : (dropPending s).txOpcode = s.txOpcode := rfl
@[simp] theorem dropPending_expOpcode : (dropPending s).expOpcode = s.expOpcode := rfl
@[simp] theorem dropPending_txbuf : (dropPending s).txbuf = s.txbuf := rfl
@[simp] theorem dropPending_txFrame : (dropPending s).txFrame = s.txFrame := rfl
@[simp] theorem dropPending_txIdx : (dropPending s).txIdx = s.txIdx := rfl
@[simp] theorem dropPending_txBusy : (dropPending s).txBusy = s.txBusy := rfl
@[simp] theorem dropPending_rxq : (dropPending s).rxq = s.rxq := rfl
@[simp] theorem dropPending_slot : (dropPending s).slot = s.slot := rfl
@[simp] theorem dropPending_win : (dropPending s).win = s.win := rfl
@[simp] theorem dropPending_skip : (dropPending s).skip = s.skip := rfl
@[simp] theorem dropPending_ending : (dropPending s).ending = s.ending := rfl
@[simp] theorem dropPending_tagq : (dropPending s).tagq = s.tagq := rfl
@[simp] theorem dropPending_cntRxdrop : (dropPending s).cntRxdrop = s.cntRxdrop := rfl
@[simp] theorem dropPending_cntFrames : (dropPending s).cntFrames = s.cntFrames := rfl
@[simp] theorem dropPending_cntTags : (dropPending s).cntTags = s.cntTags := rfl
@[simp] theorem dropPending_txwire : (dropPending s).txwire = s.txwire := rfl
@[simp] theorem dropPending_rdata : (dropPending s).rdata = s.rdata := rfl
@[simp] theorem dropPending_pending : (dropPending s).pending = s.pending.drop 1 := rfl
@[simp] theorem dropPending_turn : (dropPending s).turn = s.turn := rfl
@[simp] theorem dropPending_slack : (dropPending s).slack = s.slack := rfl
end

/-! ### spendSlack -/

section
variable (s : State)
@[simp] theorem spendSlack_cfg : (spendSlack s).cfg = s.cfg := rfl
@[simp] theorem spendSlack_ctrl : (spendSlack s).ctrl = s.ctrl := rfl
@[simp] theorem spendSlack_sticky : (spendSlack s).sticky = s.sticky := rfl
@[simp] theorem spendSlack_ie : (spendSlack s).ie = s.ie := rfl
@[simp] theorem spendSlack_txOpcode : (spendSlack s).txOpcode = s.txOpcode := rfl
@[simp] theorem spendSlack_expOpcode : (spendSlack s).expOpcode = s.expOpcode := rfl
@[simp] theorem spendSlack_txbuf : (spendSlack s).txbuf = s.txbuf := rfl
@[simp] theorem spendSlack_txFrame : (spendSlack s).txFrame = s.txFrame := rfl
@[simp] theorem spendSlack_txIdx : (spendSlack s).txIdx = s.txIdx := rfl
@[simp] theorem spendSlack_txBusy : (spendSlack s).txBusy = s.txBusy := rfl
@[simp] theorem spendSlack_rxq : (spendSlack s).rxq = s.rxq := rfl
@[simp] theorem spendSlack_slot : (spendSlack s).slot = s.slot := rfl
@[simp] theorem spendSlack_win : (spendSlack s).win = s.win := rfl
@[simp] theorem spendSlack_skip : (spendSlack s).skip = s.skip := rfl
@[simp] theorem spendSlack_ending : (spendSlack s).ending = s.ending := rfl
@[simp] theorem spendSlack_tagq : (spendSlack s).tagq = s.tagq := rfl
@[simp] theorem spendSlack_cntRxdrop : (spendSlack s).cntRxdrop = s.cntRxdrop := rfl
@[simp] theorem spendSlack_cntFrames : (spendSlack s).cntFrames = s.cntFrames := rfl
@[simp] theorem spendSlack_cntTags : (spendSlack s).cntTags = s.cntTags := rfl
@[simp] theorem spendSlack_txwire : (spendSlack s).txwire = s.txwire := rfl
@[simp] theorem spendSlack_rdata : (spendSlack s).rdata = s.rdata := rfl
@[simp] theorem spendSlack_pending : (spendSlack s).pending = s.pending := rfl
@[simp] theorem spendSlack_turn : (spendSlack s).turn = s.turn := rfl
@[simp] theorem spendSlack_slack : (spendSlack s).slack = s.slack - 1 := rfl
end

/-! ### nextTurn -/

section
variable (s : State)
@[simp] theorem nextTurn_cfg : (nextTurn s).cfg = s.cfg := rfl
@[simp] theorem nextTurn_ctrl : (nextTurn s).ctrl = s.ctrl := rfl
@[simp] theorem nextTurn_sticky : (nextTurn s).sticky = s.sticky := rfl
@[simp] theorem nextTurn_ie : (nextTurn s).ie = s.ie := rfl
@[simp] theorem nextTurn_txOpcode : (nextTurn s).txOpcode = s.txOpcode := rfl
@[simp] theorem nextTurn_expOpcode : (nextTurn s).expOpcode = s.expOpcode := rfl
@[simp] theorem nextTurn_txbuf : (nextTurn s).txbuf = s.txbuf := rfl
@[simp] theorem nextTurn_txFrame : (nextTurn s).txFrame = s.txFrame := rfl
@[simp] theorem nextTurn_txIdx : (nextTurn s).txIdx = s.txIdx := rfl
@[simp] theorem nextTurn_txBusy : (nextTurn s).txBusy = s.txBusy := rfl
@[simp] theorem nextTurn_rxq : (nextTurn s).rxq = s.rxq := rfl
@[simp] theorem nextTurn_slot : (nextTurn s).slot = s.slot := rfl
@[simp] theorem nextTurn_win : (nextTurn s).win = s.win := rfl
@[simp] theorem nextTurn_skip : (nextTurn s).skip = s.skip := rfl
@[simp] theorem nextTurn_ending : (nextTurn s).ending = s.ending := rfl
@[simp] theorem nextTurn_tagq : (nextTurn s).tagq = s.tagq := rfl
@[simp] theorem nextTurn_cntRxdrop : (nextTurn s).cntRxdrop = s.cntRxdrop := rfl
@[simp] theorem nextTurn_cntFrames : (nextTurn s).cntFrames = s.cntFrames := rfl
@[simp] theorem nextTurn_cntTags : (nextTurn s).cntTags = s.cntTags := rfl
@[simp] theorem nextTurn_txwire : (nextTurn s).txwire = s.txwire := rfl
@[simp] theorem nextTurn_rdata : (nextTurn s).rdata = s.rdata := rfl
@[simp] theorem nextTurn_pending : (nextTurn s).pending = s.pending := rfl
@[simp] theorem nextTurn_turn : (nextTurn s).turn = s.turn + 1 := rfl
@[simp] theorem nextTurn_slack : (nextTurn s).slack = Config.freeSteps (s.turn + 1) := rfl
end

/-! ### hardReset -/

section
variable (s : State)
@[simp] theorem hardReset_cfg : (hardReset s).cfg = s.cfg := rfl
@[simp] theorem hardReset_ctrl : (hardReset s).ctrl = 0x0000000C#32 := rfl
@[simp] theorem hardReset_sticky : (hardReset s).sticky = 0x00000000#32 := rfl
@[simp] theorem hardReset_ie : (hardReset s).ie = 0x00000000#32 := rfl
@[simp] theorem hardReset_txOpcode : (hardReset s).txOpcode = 0x00#8 := rfl
@[simp] theorem hardReset_expOpcode : (hardReset s).expOpcode = 0x00#8 := rfl
@[simp] theorem hardReset_txbuf : (hardReset s).txbuf = [] := rfl
@[simp] theorem hardReset_txFrame : (hardReset s).txFrame = [] := rfl
@[simp] theorem hardReset_txIdx : (hardReset s).txIdx = 0 := rfl
@[simp] theorem hardReset_txBusy : (hardReset s).txBusy = false := rfl
@[simp] theorem hardReset_rxq : (hardReset s).rxq = [] := rfl
@[simp] theorem hardReset_slot : (hardReset s).slot = Slot.empty := rfl
@[simp] theorem hardReset_win : (hardReset s).win = [] := rfl
@[simp] theorem hardReset_skip : (hardReset s).skip = 0 := rfl
@[simp] theorem hardReset_ending : (hardReset s).ending = false := rfl
@[simp] theorem hardReset_tagq : (hardReset s).tagq = [] := rfl
@[simp] theorem hardReset_cntRxdrop : (hardReset s).cntRxdrop = 0x00000000#32 := rfl
@[simp] theorem hardReset_cntFrames : (hardReset s).cntFrames = 0x00000000#32 := rfl
@[simp] theorem hardReset_cntTags : (hardReset s).cntTags = 0x00000000#32 := rfl
@[simp] theorem hardReset_txwire : (hardReset s).txwire = [] := rfl
@[simp] theorem hardReset_rdata : (hardReset s).rdata = s.rdata := rfl
@[simp] theorem hardReset_pending : (hardReset s).pending = s.pending := rfl
@[simp] theorem hardReset_turn : (hardReset s).turn = s.turn := rfl
@[simp] theorem hardReset_slack : (hardReset s).slack = s.slack := rfl
end

/-! ### blkReset -/

section
variable (s : State)
@[simp] theorem blkReset_cfg : (blkReset s).cfg = s.cfg := rfl
@[simp] theorem blkReset_ctrl : (blkReset s).ctrl = 0x0000000C#32 := rfl
@[simp] theorem blkReset_sticky : (blkReset s).sticky = 0x00000000#32 := rfl
@[simp] theorem blkReset_ie : (blkReset s).ie = 0x00000000#32 := rfl
@[simp] theorem blkReset_txOpcode : (blkReset s).txOpcode = 0x00#8 := rfl
@[simp] theorem blkReset_expOpcode : (blkReset s).expOpcode = 0x00#8 := rfl
@[simp] theorem blkReset_txbuf : (blkReset s).txbuf = [] := rfl
@[simp] theorem blkReset_txFrame : (blkReset s).txFrame = [] := rfl
@[simp] theorem blkReset_txIdx : (blkReset s).txIdx = 0 := rfl
@[simp] theorem blkReset_txBusy : (blkReset s).txBusy = false := rfl
@[simp] theorem blkReset_rxq : (blkReset s).rxq = [] := rfl
@[simp] theorem blkReset_slot : (blkReset s).slot = Slot.empty := rfl
@[simp] theorem blkReset_win : (blkReset s).win = [] := rfl
@[simp] theorem blkReset_skip : (blkReset s).skip = 0 := rfl
@[simp] theorem blkReset_ending : (blkReset s).ending = false := rfl
@[simp] theorem blkReset_tagq : (blkReset s).tagq = [] := rfl
@[simp] theorem blkReset_cntRxdrop : (blkReset s).cntRxdrop = 0x00000000#32 := rfl
@[simp] theorem blkReset_cntFrames : (blkReset s).cntFrames = 0x00000000#32 := rfl
@[simp] theorem blkReset_cntTags : (blkReset s).cntTags = 0x00000000#32 := rfl
@[simp] theorem blkReset_txwire : (blkReset s).txwire = s.txwire := rfl
@[simp] theorem blkReset_rdata : (blkReset s).rdata = s.rdata := rfl
@[simp] theorem blkReset_pending : (blkReset s).pending = s.pending := rfl
@[simp] theorem blkReset_turn : (blkReset s).turn = s.turn := rfl
@[simp] theorem blkReset_slack : (blkReset s).slack = s.slack := rfl
end

end Sys2Proof.Machine
end

