-- ==== Sys2Proof/Laws/Ops.lean ====
section
/-! SUPPORT. One lemma per shared operation that says once everything it can do, and one induction principle per operation that repeats
another: proofs cite these instead of unfolding the operations. -/

namespace Sys2Proof.Machine

/-! ### Host operations -/

theorem ctrlWrite_cases (v : Word) (s : State) :
    (v.getLsbD 1 = true ∧ s.ending = true ∧
      ctrlWrite v s = setCtrl (ctrlWord (v.getLsbD 3) (v.getLsbD 2) false (v.getLsbD 0)) (raise .cmdErr s)) ∨
    (¬(v.getLsbD 1 = true ∧ s.ending = true) ∧
      ctrlWrite v s = setCtrl (ctrlWord (v.getLsbD 3) (v.getLsbD 2) (v.getLsbD 1) (v.getLsbD 0)) s) := by
  unfold ctrlWrite
  cases v.getLsbD 1 <;> cases s.ending <;> simp

theorem txOpcodeWrite_cases (v : Word) (s : State) :
    (s.txBusy = true ∧ txOpcodeWrite v s = raise .cmdErr s) ∨
    (s.txBusy = false ∧ txOpcodeWrite v s = setTxOpcode (v.setWidth 8) s) := by
  unfold txOpcodeWrite
  cases s.txBusy <;> simp

theorem txDataWrite_cases (v : Word) (s : State) :
    (s.txBusy = true ∧ txDataWrite v s = raise .cmdErr s) ∨
    (s.txBusy = false ∧ s.txbuf.length = s.cfg.txpDepth ∧ txDataWrite v s = raise .txpOvf s) ∨
    (s.txBusy = false ∧ s.txbuf.length ≠ s.cfg.txpDepth ∧ txDataWrite v s = setTxbuf (s.txbuf ++ [v.setWidth 8]) s) := by
  unfold txDataWrite
  by_cases h : s.txbuf.length = s.cfg.txpDepth <;> cases s.txBusy <;> simp [h]

theorem txClr_cases (s : State) :
    (s.txBusy = true ∧ txClr s = raise .cmdErr s) ∨ (s.txBusy = false ∧ txClr s = setTxbuf [] s) := by
  unfold txClr
  cases s.txBusy <;> simp

theorem txSend_cases (s : State) :
    (s.txBusy = true ∧ txSend s = raise .cmdErr s) ∨ (s.txBusy = false ∧ txSend s = latchFrame s) := by
  unfold txSend
  cases s.txBusy <;> simp

theorem rxPop_cases (s : State) :
    (s.slot.valid = true ∧ rxPop s = emptySlot s) ∨ (s.slot.valid = false ∧ rxPop s = s) := by
  unfold rxPop
  cases s.slot.valid <;> simp

theorem rxFlush_cases (s : State) :
    (s.slot.valid = true ∧ rxFlush s = emptySlot (clearRxq s)) ∨ (s.slot.valid = false ∧ rxFlush s = clearRxq s) := by
  unfold rxFlush
  exact rxPop_cases (clearRxq s)

theorem tagEnd_cases (s : State) :
    (s.ending = true ∧ tagEnd s = raise .cmdErr s) ∨ (s.ending = false ∧ tagEnd s = beginEnding s) := by
  unfold tagEnd
  cases s.ending <;> simp

theorem rxDataRead_cases (s : State) :
    (s.slot.valid = true ∧ s.slot.ridx.toNat < rxPlen s ∧
      rxDataRead s = advanceRidx (busReturn ((byteAt s.slot.pbuf s.slot.ridx.toNat).setWidth 32) s)) ∨
    (¬(s.slot.valid = true ∧ s.slot.ridx.toNat < rxPlen s) ∧ rxDataRead s = busReturn 0x00000000#32 s) := by
  unfold rxDataRead rxDataValue
  by_cases h : s.slot.ridx.toNat < rxPlen s <;> cases s.slot.valid <;> simp [h]

theorem whenBit_cases (v : Word) (i : Nat) (f : State → State) (s : State) :
    (v.getLsbD i = true ∧ whenBit v i f s = f s) ∨ (v.getLsbD i = false ∧ whenBit v i f s = s) := by
  unfold whenBit
  cases v.getLsbD i <;> simp

/-- A property that every command of CMD keeps is kept by a CMD write (40_host_access.md R189). -/
theorem cmdWrite_induct (P : State → Prop)
    (hBlk : ∀ s, P s → P (blkReset s)) (hRxFlush : ∀ s, P s → P (rxFlush s)) (hRxPop : ∀ s, P s → P (rxPop s))
    (hTagFlush : ∀ s, P s → P (tagFlush s)) (hTagPop : ∀ s, P s → P (tagPop s)) (hTagEnd : ∀ s, P s → P (tagEnd s))
    (hTxClr : ∀ s, P s → P (txClr s)) (hTxSend : ∀ s, P s → P (txSend s)) (hCnt : ∀ s, P s → P (cntClr s))
    (v : Word) (s : State) (h : P s) : P (cmdWrite v s) := by
  have step : ∀ (i : Nat) (f : State → State), (∀ t, P t → P (f t)) → ∀ t, P t → P (whenBit v i f t) := by
    intro i f hf t ht
    rcases whenBit_cases v i f t with ⟨-, e⟩ | ⟨-, e⟩ <;> rw [e]
    · exact hf t ht
    · exact ht
  unfold cmdWrite
  split
  · exact hBlk s h
  · exact step 7 _ hCnt _ (step 0 _ hTxSend _ (step 1 _ hTxClr _ (step 5 _ hTagEnd _ (step 4 _ hTagPop _
      (step 6 _ hTagFlush _ (step 2 _ hRxPop _ (step 3 _ hRxFlush s h)))))))

/-- A property that every TX_DATA write keeps is kept by a run of them. -/
theorem pushParams_induct (P : State → Prop) (hWrite : ∀ b s, P s → P (txDataWrite (BitVec.setWidth 32 (b : Byte)) s))
    (p : List Byte) (s : State) (h : P s) : P (pushParams p s) := by
  induction p generalizing s with
  | nil => exact h
  | cons b p ih => exact ih _ (hWrite b s h)

/-- What `send` does: while TX_BUSY it has only read STATUS (30_encoding.md R146). -/
theorem hostSend_cases (op : Byte) (p : List Byte) (s : State) :
    (s.txBusy = true ∧ hostSend op p s = busReturn (statusValue s) s) ∨
    (s.txBusy = false ∧ hostSend op p s =
      txSend (pushParams p (txOpcodeWrite (op.setWidth 32) (txClr (busReturn (statusValue s) s))))) := by
  unfold hostSend
  cases s.txBusy <;> simp

/-! ### The UART -/

theorem tagFeed_cases (b : Byte) (s : State) :
    (tagEn s = false ∧ tagFeed b s = s) ∨
    (tagEn s = true ∧ 0 < s.skip ∧ tagFeed b s = takeTrailerByte s) ∨
    (tagEn s = true ∧ s.skip = 0 ∧ s.win.length < s.cfg.tagwDepth ∧ tagFeed b s = appendWin b s) ∨
    (tagEn s = true ∧ s.skip = 0 ∧ s.cfg.tagwDepth ≤ s.win.length ∧ tagFeed b s = raise .tagOvf s) := by
  unfold tagFeed
  by_cases hk : 0 < s.skip <;> by_cases hw : s.win.length < s.cfg.tagwDepth <;> cases tagEn s <;> simp [hk, hw] <;> omega

theorem rxIntake_cases (b : Byte) (s : State) :
    (rxfEn s = false ∧ rxIntake b s = s) ∨
    (rxfEn s = true ∧ s.rxq.length < s.cfg.rxqDepth ∧ rxIntake b s = appendRxq b s) ∨
    (rxfEn s = true ∧ s.cfg.rxqDepth ≤ s.rxq.length ∧ rxIntake b s = raise .rxOvf s) := by
  unfold rxIntake
  by_cases hq : s.rxq.length < s.cfg.rxqDepth <;> cases rxfEn s <;> (simp [hq]; try omega)

@[simp] theorem rxBytes_nil (s : State) : rxBytes [] s = s := rfl

@[simp] theorem rxBytes_cons (b : Byte) (f : List Byte) (s : State) : rxBytes (b :: f) s = rxBytes f (rxByte b s) := rfl

/-- A property that every received byte keeps is kept by a byte sequence. -/
theorem rxBytes_induct (P : State → Prop) (hByte : ∀ b s, P s → P (rxByte b s)) (f : List Byte) (s : State) (h : P s) :
    P (rxBytes f s) := by
  induction f generalizing s with
  | nil => exact h
  | cons b f ih => exact ih _ (hByte b s h)

theorem txAccept_cases (s : State) :
    (s.txBusy = false ∧ txAccept s = s) ∨
    (s.txBusy = true ∧ s.txIdx + 1 = s.txFrame.length ∧ txAccept s = raise .txDone (endTransmit (emitByte s))) ∨
    (s.txBusy = true ∧ s.txIdx + 1 ≠ s.txFrame.length ∧ txAccept s = emitByte s) := by
  unfold txAccept
  by_cases h : s.txIdx + 1 = s.txFrame.length <;> cases s.txBusy <;> simp [h]

/-! ### The engines -/

/-- The events of a complete candidate touch the sticky bits only. -/
theorem raiseChecks_eq (k e : Bool) (s : State) : raiseChecks k e s = { s with sticky := (raiseChecks k e s).sticky } := by
  cases k <;> cases e <;> rfl

theorem raiseChecks_sticky (k e : Bool) (s : State) :
    (raiseChecks k e s).sticky =
      s.sticky ||| (if k then 0x00000000#32 else eventBit .chkErr) ||| (if e then 0x00000000#32 else eventBit .eofErr) := by
  cases k <;> cases e <;> simp [raiseChecks]

theorem delinStep_cases (s : State) :
    ((rxfEn s = false ∨ s.slot.valid = true ∨ rxClass s = .wait) ∧ delinStep s = s) ∨
    (rxfEn s = true ∧ s.slot.valid = false ∧
      ((rxClass s = .drop .sof ∧ delinStep s = dropRxq s) ∨
       (rxClass s = .drop .len ∧ delinStep s = dropRxq (raise .lenErr s)) ∨
       (∃ k e, rxClass s = .drop (.cand k e) ∧ delinStep s = dropRxq (raiseChecks k e s)) ∨
       (∃ f c k e, rxClass s = .accept f c k e ∧ delinStep s = deliver f c k e (raiseChecks k e s)))) := by
  unfold delinStep
  cases hx : rxfEn s
  · exact .inl ⟨.inl rfl, by simp⟩
  · cases hv : s.slot.valid
    · cases hc : rxClass s with
      | wait => exact .inl ⟨.inr (.inr rfl), by simp⟩
      | drop r =>
        cases r with
        | sof => exact .inr ⟨rfl, rfl, .inl ⟨rfl, by simp⟩⟩
        | len => exact .inr ⟨rfl, rfl, .inr (.inl ⟨rfl, by simp⟩)⟩
        | cand k e => exact .inr ⟨rfl, rfl, .inr (.inr (.inl ⟨k, e, rfl, by simp⟩))⟩
      | accept f c k e => exact .inr ⟨rfl, rfl, .inr (.inr (.inr ⟨f, c, k, e, rfl, by simp⟩))⟩
    · exact .inl ⟨.inr (.inl rfl), by simp⟩

theorem tagStepRecord_cases (r : TagRecord) (s : State) :
    (s.tagq.length < s.cfg.tagqDepth ∧ tagStepRecord r s = emitRecord r s) ∨
    (s.cfg.tagqDepth ≤ s.tagq.length ∧ tagStepRecord r s = s) := by
  unfold tagStepRecord
  by_cases h : s.tagq.length < s.cfg.tagqDepth
  · exact .inl ⟨h, by simp [h]⟩
  · exact .inr ⟨by omega, by simp [h]⟩

theorem tagStep_cases (s : State) :
    (tclass s.win s.ending = .idle ∧ s.ending = true ∧ tagStep s = raise .tagDone (endBurst s)) ∨
    (tclass s.win s.ending = .idle ∧ s.ending = false ∧ tagStep s = s) ∨
    (tclass s.win s.ending = .wait ∧ tagStep s = s) ∨
    (tclass s.win s.ending = .skip1 ∧ tagStep s = dropWin s) ∨
    (tclass s.win s.ending = .underrun ∧ tagStep s = dropWin (raise .tagUnderrun s)) ∨
    (∃ r, tclass s.win s.ending = .record r ∧ tagStep s = tagStepRecord r s) := by
  unfold tagStep
  cases h : tclass s.win s.ending with
  | idle => cases he : s.ending <;> simp
  | wait => simp
  | skip1 => simp
  | underrun => simp
  | record r => simp

theorem tagRecordStep_cases (r : TagRecord) (s : State) :
    (tclass s.win s.ending = .record r ∧ tagRecordStep r s = tagStepRecord r s) ∨
    (tclass s.win s.ending ≠ .record r ∧ tagRecordStep r s = s) := by
  unfold tagRecordStep
  by_cases h : tclass s.win s.ending = .record r <;> simp [h]

/-! ### The classes -/

/-- Everything `classify` can answer (42_rx_framer.md R251). -/
theorem classify_cases (m : Nat) (chk eof : Bool) (q : List Byte) :
    classify m chk eof q = .wait ∨
    (q ≠ [] ∧ (classify m chk eof q = .drop .sof ∨ classify m chk eof q = .drop .len)) ∨
    (4 ≤ q.length ∧ ∃ l, l = (be16 (byteAt q 2) (byteAt q 3)).toNat ∧ frameOverhead ≤ l ∧ l ≤ m ∧ l ≤ q.length ∧
      classify m chk eof q = judge chk eof (q.take l)) := by
  have hne : q.length ≠ 0 → q ≠ [] := fun h e => h (by simp [e])
  unfold classify
  split
  · exact .inl rfl
  · rename_i h0
    split
    · exact .inr (.inl ⟨hne h0, .inl rfl⟩)
    · split
      · exact .inl rfl
      · split
        · exact .inr (.inl ⟨hne h0, .inl rfl⟩)
        · split
          · exact .inl rfl
          · rename_i h4
            dsimp only
            split
            · exact .inr (.inl ⟨hne h0, .inr rfl⟩)
            · rename_i hl
              split
              · exact .inl rfl
              · exact .inr (.inr ⟨by omega, _, rfl, by omega, by omega, by omega, rfl⟩)

theorem judge_cases (chk eof : Bool) (f : List Byte) :
    ((chk = true ∧ candidateChkOk f = false ∨ eof = true ∧ candidateEofOk f = false) ∧
      judge chk eof f = .drop (.cand (candidateChkOk f) (candidateEofOk f))) ∨
    ((chk = true → candidateChkOk f = true) ∧ (eof = true → candidateEofOk f = true) ∧
      judge chk eof f = .accept f (candidateCalc f) (candidateChkOk f) (candidateEofOk f)) := by
  unfold judge
  cases chk <;> cases eof <;> cases candidateChkOk f <;> cases candidateEofOk f <;> simp

/-- Everything `tclass` can answer (43_tag_parser.md R302). -/
theorem tclass_cases (w : List Byte) (e : Bool) :
    (w = [] ∧ tclass w e = .idle) ∨
    (w ≠ [] ∧ e = false ∧ tclass w e = .wait) ∨
    (w ≠ [] ∧ tclass w e = .skip1) ∨
    (w ≠ [] ∧ e = true ∧ tclass w e = .underrun) ∨
    (recordNeed (epcLength (be16 (byteAt w 5) (byteAt w 6))) ≤ w.length ∧
      tclass w e = .record (recordAt w (be16 (byteAt w 5) (byteAt w 6)))) := by
  unfold tclass shortCandidate
  by_cases h0 : w.length = 0
  · exact .inl ⟨List.length_eq_zero_iff.mp h0, by simp [h0]⟩
  · have hne : w ≠ [] := fun h => h0 (by simp [h])
    simp only [h0, if_false]
    split
    · exact .inr (.inr (.inl ⟨hne, rfl⟩))
    · split
      · cases e
        · exact .inr (.inl ⟨hne, rfl, rfl⟩)
        · exact .inr (.inr (.inl ⟨hne, rfl⟩))
      · split
        · exact .inr (.inr (.inl ⟨hne, rfl⟩))
        · split
          · cases e
            · exact .inr (.inl ⟨hne, rfl, rfl⟩)
            · exact .inr (.inr (.inr (.inl ⟨hne, rfl, rfl⟩)))
          · split
            · cases e
              · exact .inr (.inl ⟨hne, rfl, rfl⟩)
              · exact .inr (.inr (.inr (.inl ⟨hne, rfl, rfl⟩)))
            · exact .inr (.inr (.inr (.inr ⟨by omega, rfl⟩)))

/-! ### The agents -/

theorem delinEnabled_iff (s : State) :
    delinEnabled s = true ↔ rxfEn s = true ∧ s.slot.valid = false ∧ rxClass s ≠ .wait := by
  unfold delinEnabled
  cases rxfEn s <;> cases s.slot.valid <;> simp

/-- Every way TagStep is enabled (43_tag_parser.md R303). -/
theorem tagEnabled_cases (s : State) :
    (tagEnabled s = true ∧ ((tclass s.win s.ending = .idle ∧ s.ending = true) ∨ tclass s.win s.ending = .skip1 ∨
      tclass s.win s.ending = .underrun ∨ ∃ r, tclass s.win s.ending = .record r ∧ s.tagq.length < s.cfg.tagqDepth)) ∨
    (tagEnabled s = false ∧ ((tclass s.win s.ending = .idle ∧ s.ending = false) ∨ tclass s.win s.ending = .wait ∨
      ∃ r, tclass s.win s.ending = .record r ∧ s.cfg.tagqDepth ≤ s.tagq.length)) := by
  unfold tagEnabled
  cases h : tclass s.win s.ending with
  | idle => cases s.ending <;> simp
  | wait => simp
  | skip1 => simp
  | underrun => simp
  | record r => by_cases hq : s.tagq.length < s.cfg.tagqDepth <;> simp [hq]; omega

theorem txEnabled_iff (s : State) : txEnabled s = true ↔ s.txBusy = true ∧ uartReady s = true := by
  unfold txEnabled
  cases s.txBusy <;> simp

/-- What the free choice names (log 2). -/
theorem freeChoice_cases (s : State) :
    (s.slack = 0 ∧ engineEnabled (engineOfTurn s.turn) s = true ∧ freeChoice s = some (engineInstr (engineOfTurn s.turn))) ∨
    (s.slack = 0 ∧ engineEnabled (engineOfTurn s.turn) s = false ∧ freeChoice s = none) ∨
    (0 < s.slack ∧ (Config.nextStep s.turn s.slack).wellFormed = true ∧ freeChoice s = some (Config.nextStep s.turn s.slack)) ∨
    (0 < s.slack ∧ freeChoice s = none) := by
  unfold freeChoice engineTurn freeStep
  by_cases h : s.slack = 0
  · cases engineEnabled (engineOfTurn s.turn) s <;> simp [h]
  · have hp : 0 < s.slack := by omega
    cases (Config.nextStep s.turn s.slack).wellFormed <;>
      cases (decide (Config.nextStep s.turn s.slack ≠ .txAccept) || uartReady s) <;> simp [h, hp]

theorem countChoice_cases (s : State) :
    (s.slack = 0 ∧ countChoice s = nextTurn s) ∨ (0 < s.slack ∧ countChoice s = spendSlack s) := by
  unfold countChoice
  by_cases h : s.slack = 0
  · exact .inl ⟨h, by simp [h]⟩
  · exact .inr ⟨by omega, by simp [h]⟩

/-- Every engine has its turn again after any turn (00_scope.md R11). -/
theorem engineOfTurn_recurs (e : Engine) (n : Nat) : ∃ m, n ≤ m ∧ engineOfTurn m = e := by
  cases e
  · exact ⟨3 * n, by omega, by simp [engineOfTurn]⟩
  · exact ⟨3 * n + 1, by omega, by unfold engineOfTurn; rw [if_neg (by omega), if_pos (by omega)]⟩
  · exact ⟨3 * n + 2, by omega, by unfold engineOfTurn; rw [if_neg (by omega), if_neg (by omega)]⟩

/-! ### The platform's address decoding -/

theorem windowOffset_cases (base addr : Nat) :
    (∃ off : Byte, addr = base + off.toNat ∧ windowOffset base addr = some off) ∨
    ((addr < base ∨ base + 0xFF < addr) ∧ windowOffset base addr = none) := by
  unfold windowOffset
  by_cases h : base ≤ addr ∧ addr - base ≤ 0xFF
  · exact .inl ⟨BitVec.ofNat 8 (addr - base), by rw [BitVec.toNat_ofNat]; omega, by rw [if_pos h]⟩
  · exact .inr ⟨by omega, by rw [if_neg h]⟩

/-- An entry that names no host address is RLF's as it stands. -/
theorem route_own (base : Nat) (k : Byte) (body : List Byte) (hw : k ≠ hostWriteKind) (hr : k ≠ hostReadKind) :
    route base (k :: body) = .rlf (k :: body) := by
  simp [route, hw, hr]

/-! ### The step -/

theorem runEntry_cases (m : List Byte) (s : State) :
    (∃ e, route s.cfg.rlfBase m = .rlf e ∧ runEntry m s = runRlfEntry e s) ∨
    (route s.cfg.rlfBase m = .elsewhere ∧ runEntry m s = .next s) ∨
    (route s.cfg.rlfBase m = .malformed ∧ runEntry m s = stopFor .badEntryLength) := by
  unfold runEntry
  cases h : route s.cfg.rlfBase m <;> simp

theorem runRlfEntry_cases (m : List Byte) (s : State) :
    (∃ i, decode s.cfg.swResetOpcode m = .ok i ∧ runRlfEntry m s = exec i s) ∨
    (∃ e, decode s.cfg.swResetOpcode m = .error e ∧ runRlfEntry m s = stopFor e) := by
  unfold runRlfEntry
  cases h : decode s.cfg.swResetOpcode m <;> simp

theorem stopFor_ne_next (e : DecodeError) (t : State) : stopFor e ≠ .next t := by
  cases e <;> simp [stopFor]

theorem step_pending (s : State) (m : List Byte) (rest : List (List Byte)) (h : s.pending = m :: rest) :
    step s = runEntry m (dropPending s) := by
  unfold step
  rw [h]

theorem step_free (s : State) (h : s.pending = []) : step s = runFreeChoice s := by
  unfold step
  rw [h]

end Sys2Proof.Machine
end

