-- ==== Sys2Proof/Laws/PerInstr.lean ====
section
/-! SUPPORT. The per-instruction family EntryKind (LAWS.json): the encoding of every instruction starts with the byte of its own interface. -/

namespace Sys2Proof.Laws

/-- The interface each instruction belongs to (00_scope.md R10, 10_state.md R30). -/
def interfaceOf : Instr → StepKind
  | .setPower _ _ _ => .requestFrame
  | .getPower => .requestFrame
  | .setAntenna _ _ => .requestFrame
  | .getAntenna => .requestFrame
  | .setRfMode _ _ => .requestFrame
  | .getRfMode _ => .requestFrame
  | .setDwell _ _ _ => .requestFrame
  | .getDwell => .requestFrame
  | .inventoryStart _ => .requestFrame
  | .inventoryStop => .requestFrame
  | .softwareReset => .requestFrame
  | .setPowerAck _ => .responseFrame
  | .getPowerAck _ => .responseFrame
  | .setAntennaAck _ => .responseFrame
  | .getAntennaAck _ => .responseFrame
  | .setRfModeAck _ => .responseFrame
  | .getRfModeAck _ => .responseFrame
  | .setDwellAck _ => .responseFrame
  | .getDwellAck _ => .responseFrame
  | .inventoryStartAck _ => .responseFrame
  | .inventoryStopAck _ => .responseFrame
  | .softwareResetAck _ => .responseFrame
  | .tagRecord _ _ _ _ => .tagSpan
  | .txSend => .busWrite
  | .txClr => .busWrite
  | .rxPop => .busWrite
  | .rxFlush => .busWrite
  | .tagPop => .busWrite
  | .tagEnd => .busWrite
  | .tagFlush => .busWrite
  | .cntClr => .busWrite
  | .blkReset => .busWrite
  | .ctrlWrite _ => .busWrite
  | .statusW1c _ => .busWrite
  | .ieWrite _ => .busWrite
  | .cmdWrite _ => .busWrite
  | .txOpcodeWrite _ => .busWrite
  | .txDataWrite _ => .busWrite
  | .expOpcodeWrite _ => .busWrite
  | .roOrUnmappedWrite _ _ => .busWrite
  | .ctrlRead => .busRead
  | .statusRead => .busRead
  | .ieRead => .busRead
  | .txOpcodeRead => .busRead
  | .txPlenRead => .busRead
  | .expOpcodeRead => .busRead
  | .rxHdrRead => .busRead
  | .rxInfoRead => .busRead
  | .rxRidxRead => .busRead
  | .tagHdrRead => .busRead
  | .tagRssiRead => .busRead
  | .levelsRead => .busRead
  | .cntRxdropRead => .busRead
  | .cntFramesRead => .busRead
  | .cntTagsRead => .busRead
  | .cfg0Read => .busRead
  | .cfg1Read => .busRead
  | .tagEpcRead _ => .busRead
  | .rxDataRead => .busRead
  | .unmappedOrWoRead _ => .busRead
  | .rxByte _ => .receivedByte
  | .tagFeed _ => .fedByte
  | .rxLineError => .lineError
  | .txAccept => .transmitAccept
  | .delinStep => .delineator
  | .tagStep => .tagEngine
  | .hardReset => .reset

end Sys2Proof.Laws

namespace Sys2Proof.Laws.EntryKind

/-- The entry of `i` starts with the byte of its interface, whatever SW_RESET_OPCODE is. -/
def Statement (i : Instr) : Prop := ∀ sw : Byte, (encode sw i).head? = some (StepKind.code (interfaceOf i))

theorem setPower (nvm power1 power2 : Half) : Statement (.setPower nvm power1 power2) := fun _ => rfl
theorem getPower : Statement (.getPower) := fun _ => rfl
theorem setAntenna (rsv : Half) (mask : Byte) : Statement (.setAntenna rsv mask) := fun _ => rfl
theorem getAntenna : Statement (.getAntenna) := fun _ => rfl
theorem setRfMode (nvm : Half) (mode : Byte) : Statement (.setRfMode nvm mode) := fun _ => rfl
theorem getRfMode (rsv : Half) : Statement (.getRfMode rsv) := fun _ => rfl
theorem setDwell (nvm : Byte) (work wait : Half) : Statement (.setDwell nvm work wait) := fun _ => rfl
theorem getDwell : Statement (.getDwell) := fun _ => rfl
theorem inventoryStart (cycles : Half) : Statement (.inventoryStart cycles) := fun _ => rfl
theorem inventoryStop : Statement (.inventoryStop) := fun _ => rfl
theorem softwareReset : Statement (.softwareReset) := fun _ => rfl
theorem setPowerAck (params : List Byte) : Statement (.setPowerAck params) := fun _ => rfl
theorem getPowerAck (params : List Byte) : Statement (.getPowerAck params) := fun _ => rfl
theorem setAntennaAck (params : List Byte) : Statement (.setAntennaAck params) := fun _ => rfl
theorem getAntennaAck (params : List Byte) : Statement (.getAntennaAck params) := fun _ => rfl
theorem setRfModeAck (params : List Byte) : Statement (.setRfModeAck params) := fun _ => rfl
theorem getRfModeAck (params : List Byte) : Statement (.getRfModeAck params) := fun _ => rfl
theorem setDwellAck (params : List Byte) : Statement (.setDwellAck params) := fun _ => rfl
theorem getDwellAck (params : List Byte) : Statement (.getDwellAck params) := fun _ => rfl
theorem inventoryStartAck (params : List Byte) : Statement (.inventoryStartAck params) := fun _ => rfl
theorem inventoryStopAck (params : List Byte) : Statement (.inventoryStopAck params) := fun _ => rfl
theorem softwareResetAck (params : List Byte) : Statement (.softwareResetAck params) := fun _ => rfl
theorem tagRecord (pc : Half) (epc : List Byte) (rssi : Half) (ant : Byte) : Statement (.tagRecord pc epc rssi ant) := fun _ => rfl
theorem txSend : Statement (.txSend) := fun _ => rfl
theorem txClr : Statement (.txClr) := fun _ => rfl
theorem rxPop : Statement (.rxPop) := fun _ => rfl
theorem rxFlush : Statement (.rxFlush) := fun _ => rfl
theorem tagPop : Statement (.tagPop) := fun _ => rfl
theorem tagEnd : Statement (.tagEnd) := fun _ => rfl
theorem tagFlush : Statement (.tagFlush) := fun _ => rfl
theorem cntClr : Statement (.cntClr) := fun _ => rfl
theorem blkReset : Statement (.blkReset) := fun _ => rfl
theorem ctrlWrite (v : Word) : Statement (.ctrlWrite v) := fun _ => rfl
theorem statusW1c (v : Word) : Statement (.statusW1c v) := fun _ => rfl
theorem ieWrite (v : Word) : Statement (.ieWrite v) := fun _ => rfl
theorem cmdWrite (v : Word) : Statement (.cmdWrite v) := fun _ => rfl
theorem txOpcodeWrite (v : Word) : Statement (.txOpcodeWrite v) := fun _ => rfl
theorem txDataWrite (v : Word) : Statement (.txDataWrite v) := fun _ => rfl
theorem expOpcodeWrite (v : Word) : Statement (.expOpcodeWrite v) := fun _ => rfl
theorem roOrUnmappedWrite (off : Byte) (v : Word) : Statement (.roOrUnmappedWrite off v) := fun _ => rfl
theorem ctrlRead : Statement (.ctrlRead) := fun _ => rfl
theorem statusRead : Statement (.statusRead) := fun _ => rfl
theorem ieRead : Statement (.ieRead) := fun _ => rfl
theorem txOpcodeRead : Statement (.txOpcodeRead) := fun _ => rfl
theorem txPlenRead : Statement (.txPlenRead) := fun _ => rfl
theorem expOpcodeRead : Statement (.expOpcodeRead) := fun _ => rfl
theorem rxHdrRead : Statement (.rxHdrRead) := fun _ => rfl
theorem rxInfoRead : Statement (.rxInfoRead) := fun _ => rfl
theorem rxRidxRead : Statement (.rxRidxRead) := fun _ => rfl
theorem tagHdrRead : Statement (.tagHdrRead) := fun _ => rfl
theorem tagRssiRead : Statement (.tagRssiRead) := fun _ => rfl
theorem levelsRead : Statement (.levelsRead) := fun _ => rfl
theorem cntRxdropRead : Statement (.cntRxdropRead) := fun _ => rfl
theorem cntFramesRead : Statement (.cntFramesRead) := fun _ => rfl
theorem cntTagsRead : Statement (.cntTagsRead) := fun _ => rfl
theorem cfg0Read : Statement (.cfg0Read) := fun _ => rfl
theorem cfg1Read : Statement (.cfg1Read) := fun _ => rfl
theorem tagEpcRead (k : BitVec 4) : Statement (.tagEpcRead k) := fun _ => rfl
theorem rxDataRead : Statement (.rxDataRead) := fun _ => rfl
theorem unmappedOrWoRead (off : Byte) : Statement (.unmappedOrWoRead off) := fun _ => rfl
theorem rxByte (b : Byte) : Statement (.rxByte b) := fun _ => rfl
theorem tagFeed (b : Byte) : Statement (.tagFeed b) := fun _ => rfl
theorem rxLineError : Statement (.rxLineError) := fun _ => rfl
theorem txAccept : Statement (.txAccept) := fun _ => rfl
theorem delinStep : Statement (.delinStep) := fun _ => rfl
theorem tagStep : Statement (.tagStep) := fun _ => rfl
theorem hardReset : Statement (.hardReset) := fun _ => rfl

end Sys2Proof.Laws.EntryKind
end

