-- ==== Sys2Proof/Laws/Schedule.lean ====
section
/-! SUPPORT. The shared operations leave the schedule alone, so that a state with nothing scheduled is the start of an unending run. -/

namespace Sys2Proof.Machine

/-! ### What the shared operations do to the schedule -/

@[simp] theorem ctrlWrite_pending (v : Word) (s : State) : (ctrlWrite v s).pending = s.pending := by
  rcases ctrlWrite_cases v s with ⟨-, -, e⟩ | ⟨-, e⟩ <;> simp [e]

@[simp] theorem txOpcodeWrite_pending (v : Word) (s : State) : (txOpcodeWrite v s).pending = s.pending := by
  rcases txOpcodeWrite_cases v s with ⟨-, e⟩ | ⟨-, e⟩ <;> simp [e]

@[simp] theorem txDataWrite_pending (v : Word) (s : State) : (txDataWrite v s).pending = s.pending := by
  rcases txDataWrite_cases v s with ⟨-, e⟩ | ⟨-, -, e⟩ | ⟨-, -, e⟩ <;> simp [e]

@[simp] theorem txClr_pending (s : State) : (txClr s).pending = s.pending := by
  rcases txClr_cases s with ⟨-, e⟩ | ⟨-, e⟩ <;> simp [e]

@[simp] theorem txSend_pending (s : State) : (txSend s).pending = s.pending := by
  rcases txSend_cases s with ⟨-, e⟩ | ⟨-, e⟩ <;> simp [e]

@[simp] theorem rxPop_pending (s : State) : (rxPop s).pending = s.pending := by
  rcases rxPop_cases s with ⟨-, e⟩ | ⟨-, e⟩ <;> simp [e]

@[simp] theorem rxFlush_pending (s : State) : (rxFlush s).pending = s.pending := by
  rcases rxFlush_cases s with ⟨-, e⟩ | ⟨-, e⟩ <;> simp [e]

@[simp] theorem tagPop_pending (s : State) : (tagPop s).pending = s.pending := rfl

@[simp] theorem tagEnd_pending (s : State) : (tagEnd s).pending = s.pending := by
  rcases tagEnd_cases s with ⟨-, e⟩ | ⟨-, e⟩ <;> simp [e]

@[simp] theorem rxDataRead_pending (s : State) : (rxDataRead s).pending = s.pending := by
  rcases rxDataRead_cases s with ⟨-, -, e⟩ | ⟨-, e⟩ <;> simp [e]

@[simp] theorem cmdWrite_pending (v : Word) (s : State) : (cmdWrite v s).pending = s.pending :=
  cmdWrite_induct (fun t => t.pending = s.pending) (fun _ h => by simpa using h) (fun _ h => by simpa using h)
    (fun _ h => by simpa using h) (fun _ h => by simpa using h) (fun _ h => by simpa using h) (fun _ h => by simpa using h)
    (fun _ h => by simpa using h) (fun _ h => by simpa using h) (fun _ h => by simpa using h) v s rfl

@[simp] theorem pushParams_pending (p : List Byte) (s : State) : (pushParams p s).pending = s.pending :=
  pushParams_induct (fun t => t.pending = s.pending) (fun _ _ h => by simpa using h) p s rfl

@[simp] theorem hostSend_pending (op : Byte) (p : List Byte) (s : State) : (hostSend op p s).pending = s.pending := by
  rcases hostSend_cases op p s with ⟨-, e⟩ | ⟨-, e⟩ <;> simp [e]

@[simp] theorem tagFeed_pending (b : Byte) (s : State) : (tagFeed b s).pending = s.pending := by
  rcases tagFeed_cases b s with ⟨-, e⟩ | ⟨-, -, e⟩ | ⟨-, -, -, e⟩ | ⟨-, -, -, e⟩ <;> simp [e]

@[simp] theorem rxIntake_pending (b : Byte) (s : State) : (rxIntake b s).pending = s.pending := by
  rcases rxIntake_cases b s with ⟨-, e⟩ | ⟨-, -, e⟩ | ⟨-, -, e⟩ <;> simp [e]

@[simp] theorem rxByte_pending (b : Byte) (s : State) : (rxByte b s).pending = s.pending := by simp [rxByte]

@[simp] theorem rxBytes_pending (f : List Byte) (s : State) : (rxBytes f s).pending = s.pending :=
  rxBytes_induct (fun t => t.pending = s.pending) (fun _ _ h => by simpa using h) f s rfl

@[simp] theorem rxResponse_pending (op : Byte) (p : List Byte) (s : State) : (rxResponse op p s).pending = s.pending := by
  simp [rxResponse]

@[simp] theorem rxLineError_pending (s : State) : (rxLineError s).pending = s.pending := rfl

@[simp] theorem txAccept_pending (s : State) : (txAccept s).pending = s.pending := by
  rcases txAccept_cases s with ⟨-, e⟩ | ⟨-, -, e⟩ | ⟨-, -, e⟩ <;> simp [e]

@[simp] theorem raiseChecks_pending (k e : Bool) (s : State) : (raiseChecks k e s).pending = s.pending := by
  cases k <;> cases e <;> rfl

@[simp] theorem delinStep_pending (s : State) : (delinStep s).pending = s.pending := by
  rcases delinStep_cases s with ⟨-, e⟩ | ⟨-, -, ⟨-, e⟩ | ⟨-, e⟩ | ⟨_, _, -, e⟩ | ⟨_, _, _, _, -, e⟩⟩ <;> simp [e]

@[simp] theorem tagStepRecord_pending (r : TagRecord) (s : State) : (tagStepRecord r s).pending = s.pending := by
  rcases tagStepRecord_cases r s with ⟨-, e⟩ | ⟨-, e⟩ <;> simp [e]

@[simp] theorem tagStep_pending (s : State) : (tagStep s).pending = s.pending := by
  rcases tagStep_cases s with ⟨-, -, e⟩ | ⟨-, -, e⟩ | ⟨-, e⟩ | ⟨-, e⟩ | ⟨-, e⟩ | ⟨_, -, e⟩ <;> simp [e]

@[simp] theorem tagRecordStep_pending (r : TagRecord) (s : State) : (tagRecordStep r s).pending = s.pending := by
  rcases tagRecordStep_cases r s with ⟨-, e⟩ | ⟨-, e⟩ <;> simp [e]

@[simp] theorem countChoice_pending (s : State) : (countChoice s).pending = s.pending := by
  rcases countChoice_cases s with ⟨-, e⟩ | ⟨-, e⟩ <;> simp [e]

/-! ### Unending runs -/

/-- With nothing scheduled an instruction answers a state with nothing scheduled. -/
theorem exec_unscheduled (i : Instr) (s : State) (h : s.pending = []) : ∃ t, exec i s = .next t ∧ t.pending = [] := by
  cases i <;> refine ⟨_, rfl, ?_⟩ <;> simp [h]

/-- With nothing scheduled a step answers a state with nothing scheduled. -/
theorem step_unscheduled (s : State) (h : s.pending = []) : ∃ t, step s = .next t ∧ t.pending = [] := by
  rw [step_free s h]
  unfold runFreeChoice
  cases freeChoice s with
  | none => exact ⟨_, rfl, by simp [h]⟩
  | some i => exact exec_unscheduled i _ (by simp [h])

/-- Every state with nothing scheduled is the start of an unending run. -/
theorem exists_run (s : State) (h : s.pending = []) : ∃ run, run 0 = s ∧ IsRun run := by
  let next : { t : State // t.pending = [] } → { t : State // t.pending = [] } :=
    fun t => ⟨(step_unscheduled t.1 t.2).choose, (step_unscheduled t.1 t.2).choose_spec.2⟩
  refine ⟨fun n => (next^[n] ⟨s, h⟩).1, rfl, fun n => ?_⟩
  show step (next^[n] ⟨s, h⟩).1 = .next (next^[n + 1] ⟨s, h⟩).1
  rw [Function.iterate_succ_apply']
  exact (step_unscheduled _ (next^[n] ⟨s, h⟩).2).choose_spec.1

end Sys2Proof.Machine
end

