-- ==== Sys2Proof/Tests/Slice0.lean ====
section
/-! SUPPORT. Tests of the model: what WellFormed refuses, every constructor's decoding from words written out by hand, single steps on the
spec's own vectors (95_test_vectors.md and the examples of the rules), and one witness theorem for each obligation with hypotheses. -/

namespace Sys2Proof.Tests

open Sys2Proof.Machine Sys2Proof.Statements

/-! ### Concrete states -/

/-- The reference depths of 00_scope.md R8, with one allowed SW_RESET_OPCODE. -/
def ref : Params :=
  { txpDepth := 64, rxpDepth := 256, rxqDepth := 264, tagwDepth := 128, tagqDepth := 16, swResetOpcode := 0xE0#8,
    rlfBase := 0x40000000 }

/-- The reset state with those parameters. -/
def base : State := { State.reset with cfg := ref }

/-- `base` with a schedule. -/
def sched (l : List (List Byte)) : State := { base with pending := l }

/-- The get-power frame (V-E4). -/
def getPowerFrame : List Byte := [0xA5#8, 0x5A#8, 0x00#8, 0x08#8, 0x12#8, 0x1A#8, 0x0D#8, 0x0A#8]

/-- The set-power ack of V-RX1. -/
def ackFrame : List Byte := [0xA5#8, 0x5A#8, 0x00#8, 0x09#8, 0x11#8, 0x00#8, 0x18#8, 0x0D#8, 0x0A#8]

/-- A state that receives frames: RXF_EN, CHK_EN, EOF_EN, with `q` in RXQ. -/
def rxWith (q : List Byte) : State := { base with ctrl := 0x0000000D#32, rxq := q }

/-- As `rxWith`, the two checks off. -/
def rxOpen (q : List Byte) : State := { base with ctrl := 0x00000001#32, rxq := q }

/-- The get-power frame on its way, `n` bytes of it sent. -/
def sending (n : Nat) : State :=
  { base with txOpcode := 0x12#8, txFrame := getPowerFrame, txIdx := n, txBusy := true, expOpcode := 0x13#8 }

/-- A frame in the slot, its one PARAMS byte unread. -/
def withSlot : State :=
  { base with
    expOpcode := 0x11#8
    slot := { valid := true, opcode := 0x11#8, len := 0x0009#16, pbuf := [0x7E#8], chk := 0x66#8, computed := 0x66#8, chkOk := true,
              eofOk := true, ridx := 0x0000#16 } }

/-- The record of T1 (V-T1). -/
def rec1 : TagRecord := { pc := 0x0800#16, epcLen := 2, epc := [0x11#8, 0x22#8], rssi := 0xF830#16, ant := 0x02#8 }

/-- T1 (95_test_vectors.md). -/
def t1 : List Byte :=
  [0xA5#8, 0x5A#8, 0x00#8, 0x0F#8, 0x00#8, 0x08#8, 0x00#8, 0x11#8, 0x22#8, 0xF8#8, 0x30#8, 0x02#8, 0xFE#8, 0x0D#8, 0x0A#8]

/-- TAG_EN with `w` in the window. -/
def tagWith (w : List Byte) : State := { base with ctrl := 0x0000000E#32, win := w }

/-- An end of burst running with `w` in the window. -/
def endingWith (w : List Byte) : State := { base with win := w, ending := true }

/-- One record in TAGQ. -/
def withTag : State := { base with tagq := [rec1] }

/-- A TAGQ as full as the reference depth lets it be. -/
def tagqFull (w : List Byte) : State := { tagWith w with tagq := List.replicate 16 rec1 }

/-! ### WellFormed refuses an ill-formed term, one for each check -/

theorem test_wf_ack_params_too_long (p : List Byte) (h : 65527 < p.length) :
    (Instr.setPowerAck p).wellFormed = false ∧ (Instr.getPowerAck p).wellFormed = false ∧
    (Instr.setAntennaAck p).wellFormed = false ∧ (Instr.getAntennaAck p).wellFormed = false ∧
    (Instr.setRfModeAck p).wellFormed = false ∧ (Instr.getRfModeAck p).wellFormed = false ∧
    (Instr.setDwellAck p).wellFormed = false ∧ (Instr.getDwellAck p).wellFormed = false ∧
    (Instr.inventoryStartAck p).wellFormed = false ∧ (Instr.inventoryStopAck p).wellFormed = false ∧
    (Instr.softwareResetAck p).wellFormed = false := by
  have h' : ¬p.length ≤ 65527 := by omega
  simp [Instr.wellFormed, paramsFit, maxParams, h']

theorem test_wf_ack_params_too_long_exists : 65527 < (List.replicate 65528 (0x00#8 : Byte)).length := by
  rw [List.length_replicate]; omega

theorem test_wf_tag_record_epc_length : (Instr.tagRecord 0x0800#16 [0x11#8] 0#16 0#8).wellFormed = false := by decide

theorem test_wf_cmd_write_lone_command : (Instr.cmdWrite 0x00000020#32).wellFormed = false := by decide

theorem test_wf_write_unaligned_offset : (Instr.roOrUnmappedWrite 0x21#8 0#32).wellFormed = false := by decide

theorem test_wf_write_offset_of_a_writable_register : (Instr.roOrUnmappedWrite 0x1C#8 0#32).wellFormed = false := by decide

theorem test_wf_read_unaligned_offset : (Instr.unmappedOrWoRead 0x91#8).wellFormed = false := by decide

theorem test_wf_read_offset_of_a_readable_register : (Instr.unmappedOrWoRead 0x8C#8).wellFormed = false := by decide

/-! ### Decoding: words written out from 30_encoding.md -/

/-- The frames of V-E1, E4, E5, E6, E8, E9, E10, E13, R355's with mode 3, R359's with 0x1234 cycles, and an empty-PARAMS frame of E0. -/
theorem test_decode_requests :
    decode 0xE0#8 [0x53#8, 0xA5#8, 0x5A#8, 0x00#8, 0x0E#8, 0x10#8, 0x00#8, 0x00#8, 0x07#8, 0xD0#8, 0x07#8, 0xD0#8, 0x1E#8, 0x0D#8, 0x0A#8] =
      .ok (.setPower 0x0000#16 0x07D0#16 0x07D0#16) ∧
    decode 0xE0#8 (0x53#8 :: getPowerFrame) = .ok .getPower ∧
    decode 0xE0#8 [0x53#8, 0xA5#8, 0x5A#8, 0x00#8, 0x0B#8, 0x28#8, 0x00#8, 0x00#8, 0x05#8, 0x26#8, 0x0D#8, 0x0A#8] =
      .ok (.setAntenna 0x0000#16 0x05#8) ∧
    decode 0xE0#8 [0x53#8, 0xA5#8, 0x5A#8, 0x00#8, 0x08#8, 0x2A#8, 0x22#8, 0x0D#8, 0x0A#8] = .ok .getAntenna ∧
    decode 0xE0#8 [0x53#8, 0xA5#8, 0x5A#8, 0x00#8, 0x0B#8, 0x52#8, 0x00#8, 0x00#8, 0x03#8, 0x5A#8, 0x0D#8, 0x0A#8] =
      .ok (.setRfMode 0x0000#16 0x03#8) ∧
    decode 0xE0#8 [0x53#8, 0xA5#8, 0x5A#8, 0x00#8, 0x0A#8, 0x54#8, 0x00#8, 0x00#8, 0x5E#8, 0x0D#8, 0x0A#8] = .ok (.getRfMode 0x0000#16) ∧
    decode 0xE0#8 [0x53#8, 0xA5#8, 0x5A#8, 0x00#8, 0x0D#8, 0x3C#8, 0x00#8, 0x00#8, 0xC8#8, 0x00#8, 0x64#8, 0x9D#8, 0x0D#8, 0x0A#8] =
      .ok (.setDwell 0x00#8 0x00C8#16 0x0064#16) ∧
    decode 0xE0#8 [0x53#8, 0xA5#8, 0x5A#8, 0x00#8, 0x08#8, 0x3E#8, 0x36#8, 0x0D#8, 0x0A#8] = .ok .getDwell ∧
    decode 0xE0#8 [0x53#8, 0xA5#8, 0x5A#8, 0x00#8, 0x0A#8, 0x82#8, 0x12#8, 0x34#8, 0xAE#8, 0x0D#8, 0x0A#8] =
      .ok (.inventoryStart 0x1234#16) ∧
    decode 0xE0#8 [0x53#8, 0xA5#8, 0x5A#8, 0x00#8, 0x08#8, 0x8C#8, 0x84#8, 0x0D#8, 0x0A#8] = .ok .inventoryStop ∧
    decode 0xE0#8 [0x53#8, 0xA5#8, 0x5A#8, 0x00#8, 0x08#8, 0xE0#8, 0xE8#8, 0x0D#8, 0x0A#8] = .ok .softwareReset :=
  ⟨rfl, rfl, rfl, rfl, rfl, rfl, rfl, rfl, rfl, rfl, rfl⟩

/-- Every ack with one PARAMS byte 7E: the request's opcode plus 1 (R134). -/
theorem test_decode_acks :
    decode 0xE0#8 [0x41#8, 0xA5#8, 0x5A#8, 0x00#8, 0x09#8, 0x11#8, 0x7E#8, 0x66#8, 0x0D#8, 0x0A#8] = .ok (.setPowerAck [0x7E#8]) ∧
    decode 0xE0#8 [0x41#8, 0xA5#8, 0x5A#8, 0x00#8, 0x09#8, 0x13#8, 0x7E#8, 0x64#8, 0x0D#8, 0x0A#8] = .ok (.getPowerAck [0x7E#8]) ∧
    decode 0xE0#8 [0x41#8, 0xA5#8, 0x5A#8, 0x00#8, 0x09#8, 0x29#8, 0x7E#8, 0x5E#8, 0x0D#8, 0x0A#8] = .ok (.setAntennaAck [0x7E#8]) ∧
    decode 0xE0#8 [0x41#8, 0xA5#8, 0x5A#8, 0x00#8, 0x09#8, 0x2B#8, 0x7E#8, 0x5C#8, 0x0D#8, 0x0A#8] = .ok (.getAntennaAck [0x7E#8]) ∧
    decode 0xE0#8 [0x41#8, 0xA5#8, 0x5A#8, 0x00#8, 0x09#8, 0x53#8, 0x7E#8, 0x24#8, 0x0D#8, 0x0A#8] = .ok (.setRfModeAck [0x7E#8]) ∧
    decode 0xE0#8 [0x41#8, 0xA5#8, 0x5A#8, 0x00#8, 0x09#8, 0x55#8, 0x7E#8, 0x22#8, 0x0D#8, 0x0A#8] = .ok (.getRfModeAck [0x7E#8]) ∧
    decode 0xE0#8 [0x41#8, 0xA5#8, 0x5A#8, 0x00#8, 0x09#8, 0x3D#8, 0x7E#8, 0x4A#8, 0x0D#8, 0x0A#8] = .ok (.setDwellAck [0x7E#8]) ∧
    decode 0xE0#8 [0x41#8, 0xA5#8, 0x5A#8, 0x00#8, 0x09#8, 0x3F#8, 0x7E#8, 0x48#8, 0x0D#8, 0x0A#8] = .ok (.getDwellAck [0x7E#8]) ∧
    decode 0xE0#8 [0x41#8, 0xA5#8, 0x5A#8, 0x00#8, 0x09#8, 0x83#8, 0x7E#8, 0xF4#8, 0x0D#8, 0x0A#8] = .ok (.inventoryStartAck [0x7E#8]) ∧
    decode 0xE0#8 [0x41#8, 0xA5#8, 0x5A#8, 0x00#8, 0x09#8, 0x8D#8, 0x7E#8, 0xFA#8, 0x0D#8, 0x0A#8] = .ok (.inventoryStopAck [0x7E#8]) ∧
    decode 0xE0#8 [0x41#8, 0xA5#8, 0x5A#8, 0x00#8, 0x09#8, 0xE1#8, 0x7E#8, 0x96#8, 0x0D#8, 0x0A#8] = .ok (.softwareResetAck [0x7E#8]) :=
  ⟨rfl, rfl, rfl, rfl, rfl, rfl, rfl, rfl, rfl, rfl, rfl⟩

/-- T1 (V-T1's record) and G1 of 95_test_vectors.md: no EPC byte. -/
theorem test_decode_tag_record :
    decode 0xE0#8 (0x54#8 :: t1) = .ok (.tagRecord 0x0800#16 [0x11#8, 0x22#8] 0xF830#16 0x02#8) ∧
    decode 0xE0#8 [0x54#8, 0xA5#8, 0x5A#8, 0x00#8, 0x0D#8, 0x00#8, 0x00#8, 0x00#8, 0xFF#8, 0x9C#8, 0x03#8, 0x6D#8, 0x0D#8, 0x0A#8] =
      .ok (.tagRecord 0x0000#16 [] 0xFF9C#16 0x03#8) := ⟨rfl, rfl⟩

/-- The bits of CMD (10_state.md R43), each alone; two together are a CMD write. -/
theorem test_decode_commands :
    decode 0xE0#8 [0x57#8, 0x04#8, 0x0C#8, 0x00#8, 0x00#8, 0x00#8, 0x01#8] = .ok .txSend ∧
    decode 0xE0#8 [0x57#8, 0x04#8, 0x0C#8, 0x00#8, 0x00#8, 0x00#8, 0x02#8] = .ok .txClr ∧
    decode 0xE0#8 [0x57#8, 0x04#8, 0x0C#8, 0x00#8, 0x00#8, 0x00#8, 0x04#8] = .ok .rxPop ∧
    decode 0xE0#8 [0x57#8, 0x04#8, 0x0C#8, 0x00#8, 0x00#8, 0x00#8, 0x08#8] = .ok .rxFlush ∧
    decode 0xE0#8 [0x57#8, 0x04#8, 0x0C#8, 0x00#8, 0x00#8, 0x00#8, 0x10#8] = .ok .tagPop ∧
    decode 0xE0#8 [0x57#8, 0x04#8, 0x0C#8, 0x00#8, 0x00#8, 0x00#8, 0x20#8] = .ok .tagEnd ∧
    decode 0xE0#8 [0x57#8, 0x04#8, 0x0C#8, 0x00#8, 0x00#8, 0x00#8, 0x40#8] = .ok .tagFlush ∧
    decode 0xE0#8 [0x57#8, 0x04#8, 0x0C#8, 0x00#8, 0x00#8, 0x00#8, 0x80#8] = .ok .cntClr ∧
    decode 0xE0#8 [0x57#8, 0x04#8, 0x0C#8, 0x80#8, 0x00#8, 0x00#8, 0x00#8] = .ok .blkReset ∧
    decode 0xE0#8 [0x57#8, 0x04#8, 0x0F#8, 0x00#8, 0x00#8, 0x00#8, 0x03#8] = .ok (.cmdWrite 0x00000003#32) :=
  ⟨rfl, rfl, rfl, rfl, rfl, rfl, rfl, rfl, rfl, rfl⟩

/-- Host writes (30_encoding.md R145, 40_host_access.md R181); offset bits 1:0 are not decoded (20_memory.md R105). -/
theorem test_decode_writes :
    decode 0xE0#8 [0x57#8, 0x04#8, 0x03#8, 0x12#8, 0x34#8, 0x56#8, 0x78#8] = .ok (.ctrlWrite 0x12345678#32) ∧
    decode 0xE0#8 [0x57#8, 0x04#8, 0x04#8, 0x12#8, 0x34#8, 0x56#8, 0x78#8] = .ok (.statusW1c 0x12345678#32) ∧
    decode 0xE0#8 [0x57#8, 0x04#8, 0x08#8, 0x12#8, 0x34#8, 0x56#8, 0x78#8] = .ok (.ieWrite 0x12345678#32) ∧
    decode 0xE0#8 [0x57#8, 0x04#8, 0x10#8, 0x12#8, 0x34#8, 0x56#8, 0x78#8] = .ok (.txOpcodeWrite 0x12345678#32) ∧
    decode 0xE0#8 [0x57#8, 0x04#8, 0x14#8, 0x12#8, 0x34#8, 0x56#8, 0x78#8] = .ok (.txDataWrite 0x12345678#32) ∧
    decode 0xE0#8 [0x57#8, 0x04#8, 0x1C#8, 0x12#8, 0x34#8, 0x56#8, 0x78#8] = .ok (.expOpcodeWrite 0x12345678#32) ∧
    decode 0xE0#8 [0x57#8, 0x04#8, 0x19#8, 0x12#8, 0x34#8, 0x56#8, 0x78#8] = .ok (.roOrUnmappedWrite 0x18#8 0x12345678#32) ∧
    decode 0xE0#8 [0x57#8, 0x04#8, 0xFF#8, 0x12#8, 0x34#8, 0x56#8, 0x78#8] = .ok (.roOrUnmappedWrite 0xFC#8 0x12345678#32) :=
  ⟨rfl, rfl, rfl, rfl, rfl, rfl, rfl, rfl⟩

/-- Host reads (30_encoding.md R145; the offsets of 10_state.md R33). -/
theorem test_decode_reads :
    decode 0xE0#8 [0x52#8, 0x04#8, 0x00#8] = .ok .ctrlRead ∧ decode 0xE0#8 [0x52#8, 0x04#8, 0x04#8] = .ok .statusRead ∧
    decode 0xE0#8 [0x52#8, 0x04#8, 0x08#8] = .ok .ieRead ∧ decode 0xE0#8 [0x52#8, 0x04#8, 0x10#8] = .ok .txOpcodeRead ∧
    decode 0xE0#8 [0x52#8, 0x04#8, 0x18#8] = .ok .txPlenRead ∧ decode 0xE0#8 [0x52#8, 0x04#8, 0x1C#8] = .ok .expOpcodeRead ∧
    decode 0xE0#8 [0x52#8, 0x04#8, 0x20#8] = .ok .rxHdrRead ∧ decode 0xE0#8 [0x52#8, 0x04#8, 0x24#8] = .ok .rxInfoRead ∧
    decode 0xE0#8 [0x52#8, 0x04#8, 0x28#8] = .ok .rxDataRead ∧ decode 0xE0#8 [0x52#8, 0x04#8, 0x2F#8] = .ok .rxRidxRead ∧
    decode 0xE0#8 [0x52#8, 0x04#8, 0x30#8] = .ok .tagHdrRead ∧ decode 0xE0#8 [0x52#8, 0x04#8, 0x34#8] = .ok .tagRssiRead ∧
    decode 0xE0#8 [0x52#8, 0x04#8, 0x38#8] = .ok .levelsRead ∧ decode 0xE0#8 [0x52#8, 0x04#8, 0x3C#8] = .ok .cntRxdropRead ∧
    decode 0xE0#8 [0x52#8, 0x04#8, 0x40#8] = .ok .cntFramesRead ∧ decode 0xE0#8 [0x52#8, 0x04#8, 0x44#8] = .ok .cntTagsRead ∧
    decode 0xE0#8 [0x52#8, 0x04#8, 0x48#8] = .ok .cfg0Read ∧ decode 0xE0#8 [0x52#8, 0x04#8, 0x4C#8] = .ok .cfg1Read ∧
    decode 0xE0#8 [0x52#8, 0x04#8, 0x50#8] = .ok (.tagEpcRead 0#4) ∧ decode 0xE0#8 [0x52#8, 0x04#8, 0x8C#8] = .ok (.tagEpcRead 15#4) ∧
    decode 0xE0#8 [0x52#8, 0x04#8, 0x0C#8] = .ok (.unmappedOrWoRead 0x0C#8) ∧
    decode 0xE0#8 [0x52#8, 0x04#8, 0x14#8] = .ok (.unmappedOrWoRead 0x14#8) ∧
    decode 0xE0#8 [0x52#8, 0x04#8, 0x90#8] = .ok (.unmappedOrWoRead 0x90#8) :=
  ⟨rfl, rfl, rfl, rfl, rfl, rfl, rfl, rfl, rfl, rfl, rfl, rfl, rfl, rfl, rfl, rfl, rfl, rfl, rfl, rfl, rfl, rfl, rfl⟩

/-- The environment and engine steps (log 3). -/
theorem test_decode_environment_and_engines :
    decode 0xE0#8 [0x42#8, 0xA5#8] = .ok (.rxByte 0xA5#8) ∧ decode 0xE0#8 [0x46#8, 0xA5#8] = .ok (.tagFeed 0xA5#8) ∧
    decode 0xE0#8 [0x45#8] = .ok .rxLineError ∧ decode 0xE0#8 [0x58#8] = .ok .txAccept ∧ decode 0xE0#8 [0x44#8] = .ok .delinStep ∧
    decode 0xE0#8 [0x50#8] = .ok .tagStep ∧ decode 0xE0#8 [0x48#8] = .ok .hardReset := ⟨rfl, rfl, rfl, rfl, rfl, rfl, rfl⟩

/-- What the decoder rejects, each by name. -/
theorem test_decode_rejects_by_name :
    decode 0xE0#8 [] = .error .emptyEntry ∧ decode 0xE0#8 [0x00#8] = .error .unknownKind ∧ decode 0xE0#8 [0x44#8, 0x00#8] = .error .badEntryLength ∧
    decode 0xE0#8 [0x52#8, 0x02#8, 0x00#8] = .error .narrowAccess ∧ decode 0xE0#8 [0x52#8, 0x05#8, 0x00#8] = .error .badAccessSize ∧
    decode 0xE0#8 [0x53#8, 0xA5#8, 0x5B#8, 0x00#8, 0x08#8, 0x12#8, 0x1A#8, 0x0D#8, 0x0A#8] = .error .badSof ∧
    decode 0xE0#8 [0x53#8, 0xA5#8, 0x5A#8, 0x00#8, 0x09#8, 0x12#8, 0x1B#8, 0x0D#8, 0x0A#8] = .error .badLength ∧
    decode 0xE0#8 [0x53#8, 0xA5#8, 0x5A#8, 0x00#8, 0x08#8, 0x12#8, 0x1B#8, 0x0D#8, 0x0A#8] = .error .badChecksum ∧
    decode 0xE0#8 [0x53#8, 0xA5#8, 0x5A#8, 0x00#8, 0x08#8, 0x12#8, 0x1A#8, 0x0D#8, 0x0B#8] = .error .badEof ∧
    decode 0xE0#8 [0x53#8, 0xA5#8, 0x5A#8, 0x00#8, 0x08#8, 0x13#8, 0x1B#8, 0x0D#8, 0x0A#8] = .error .unknownOpcode ∧
    decode 0xE0#8 [0x53#8, 0xA5#8, 0x5A#8, 0x00#8, 0x09#8, 0x12#8, 0x00#8, 0x1B#8, 0x0D#8, 0x0A#8] = .error .badParams :=
  ⟨rfl, rfl, rfl, rfl, rfl, rfl, rfl, rfl, rfl, rfl, rfl⟩

/-- The numbers of spec/opcode_table.json (log 5): a request, an ack, a command, a command-only number, a write, a read, the record. -/
theorem test_table_numbers :
    decodeTableWord 8 0x10 = some (.setPower 0x0000#16 0x0000#16 0x0000#16) ∧ decodeTableWord 8 0x8D = some (.inventoryStopAck []) ∧
    decodeTableWord 32 0x80000000 = some .blkReset ∧ decodeTableWord 8 0x80 = some .cntClr ∧
    decodeTableWord 8 0x1C = some (.expOpcodeWrite 0#32) ∧ decodeTableWord 8 0x4C = some .cfg1Read ∧
    decodeTableWord 16 0xA55A = some (.tagRecord 0x0000#16 [] 0x0000#16 0x00#8) := ⟨rfl, rfl, rfl, rfl, rfl, rfl, rfl⟩

/-- A placed instruction is the one the very next step runs, from the reset state (log 4). -/
theorem test_placed_instruction_runs_first :
    step (State.reset.withFetchWord 8 0x12) = exec .getPower (State.reset.withFetchWord 8 0x12 |> dropPending) ∧
    step (State.reset.withFetchWord 16 0xA55A) =
      .next { State.reset with
        tagq := [{ pc := 0x0000#16, epcLen := 0, epc := [], rssi := 0x0000#16, ant := 0x00#8 }], cntTags := 0x00000001#32 } := ⟨rfl, rfl⟩

/-- A host write at RLF_BASE + 0x1C reaches EXP_OPCODE, and one just past the window leaves RLF as it is (20_memory.md R101). -/
theorem test_host_address_reaches_the_window :
    step (sched [[0x77#8, 0x04#8, 0x40#8, 0x00#8, 0x00#8, 0x1C#8, 0x04#8, 0x00#8, 0x00#8, 0x00#8, 0x83#8]]) =
      .next { base with expOpcode := 0x83#8 } ∧
    step (sched [[0x77#8, 0x04#8, 0x40#8, 0x00#8, 0x01#8, 0x1C#8, 0x04#8, 0x00#8, 0x00#8, 0x00#8, 0x83#8]]) = .next base ∧
    step (sched [[0x72#8, 0x04#8, 0x40#8, 0x00#8, 0x00#8, 0x1C#8, 0x02#8]]) = .refused .narrowAccess ∧
    step (sched [[0x72#8, 0x04#8, 0x40#8, 0x00#8, 0x00#8, 0x1C#8]]) = .fault (.undecodable .badEntryLength) := ⟨rfl, rfl, rfl, rfl⟩

/-- 42_rx_framer.md R253 and 43_tag_parser.md R303: an engine turn takes the engine's step where it is enabled. -/
theorem test_engine_turn_takes_an_enabled_step :
    nextInstr (rxWith ackFrame) = some .delinStep ∧ nextInstr { tagWith t1 with turn := 1 } = some .tagStep ∧
    nextInstr { base with turn := 1 } = none := ⟨rfl, rfl, rfl⟩

/-! ### Single steps: expected results from the spec's examples and vectors -/

/-- V-E1 (20.00 dBm) by 44_commands.md R351. -/
theorem test_set_power_frame :
    ∃ t, exec (.setPower 0x0000#16 (dbmToRaw 2000) (dbmToRaw 2000)) base = .next t ∧
      t.txFrame = [0xA5#8, 0x5A#8, 0x00#8, 0x0E#8, 0x10#8, 0x00#8, 0x00#8, 0x07#8, 0xD0#8, 0x07#8, 0xD0#8, 0x1E#8, 0x0D#8, 0x0A#8] ∧
      t.txBusy = true ∧ t.expOpcode = 0x11#8 := ⟨_, rfl, by decide⟩

/-- V-E7 (RF mode 2), V-E9 (dwell), V-E12 (100 cycles). -/
theorem test_other_request_frames :
    ∃ t u v, exec (.setRfMode 0x0000#16 0x02#8) base = .next t ∧ exec (.setDwell 0x00#8 0x00C8#16 0x0064#16) base = .next u ∧
      exec (.inventoryStart 0x0064#16) base = .next v ∧
      t.txFrame = [0xA5#8, 0x5A#8, 0x00#8, 0x0B#8, 0x52#8, 0x00#8, 0x00#8, 0x02#8, 0x5B#8, 0x0D#8, 0x0A#8] ∧
      u.txFrame = [0xA5#8, 0x5A#8, 0x00#8, 0x0D#8, 0x3C#8, 0x00#8, 0x00#8, 0xC8#8, 0x00#8, 0x64#8, 0x9D#8, 0x0D#8, 0x0A#8] ∧
      v.txFrame = [0xA5#8, 0x5A#8, 0x00#8, 0x0A#8, 0x82#8, 0x00#8, 0x64#8, 0xEC#8, 0x0D#8, 0x0A#8] :=
  ⟨_, _, _, rfl, rfl, rfl, by decide⟩

/-- The antenna mask of 44_commands.md R353's example. -/
theorem test_antenna_mask_example : antennaMask true false true false = 0x05#8 := by decide

/-- The set-power ack of V-RX1 arriving whole. -/
theorem test_ack_bytes_arrive : ∃ t, exec (.setPowerAck [0x00#8]) (rxWith []) = .next t ∧ t.rxq = ackFrame :=
  ⟨_, rfl, by decide +kernel⟩

/-- V-RX1: the ack delivered, RX_HDR 0x00091811, RX_INFO 0x03180001 (EXP_OPCODE 0). -/
theorem test_delivered_ack :
    ∃ t, exec .delinStep (rxWith ackFrame) = .next t ∧ rxHdrValue t = 0x00091811#32 ∧ rxInfoValue t = 0x03180001#32 ∧ t.rxq = [] ∧
      t.cntFrames = 0x00000001#32 ∧ statusValue t = 0x00000002#32 := ⟨_, rfl, by decide⟩

/-- 42_rx_framer.md R257's example: a wrong checksum raises CHK_ERR and drops one byte. -/
theorem test_wrong_checksum_drops_one_byte :
    ∃ t, exec .delinStep (rxWith [0xA5#8, 0x5A#8, 0x00#8, 0x08#8, 0x12#8, 0x1B#8, 0x0D#8, 0x0A#8]) = .next t ∧
      t.rxq = [0x5A#8, 0x00#8, 0x08#8, 0x12#8, 0x1B#8, 0x0D#8, 0x0A#8] ∧ statusValue t = 0x00000800#32 := ⟨_, rfl, by decide⟩

/-- V-RX2: LENGTH 5 raises LEN_ERR. V-RX3: LENGTH 265 is above MAX_FRAME. -/
theorem test_bad_length_raises_len_err :
    ∃ t u, exec .delinStep (rxWith [0xA5#8, 0x5A#8, 0x00#8, 0x05#8]) = .next t ∧
      exec .delinStep (rxWith [0xA5#8, 0x5A#8, 0x01#8, 0x09#8]) = .next u ∧
      statusValue t = 0x00000400#32 ∧ statusValue u = 0x00000400#32 ∧ t.cntRxdrop = 0x00000001#32 := ⟨_, _, rfl, rfl, by decide⟩

/-- V-T1 and 43_tag_parser.md R305's example: T1's record. -/
theorem test_tag_step_emits_t1 :
    ∃ t, exec .tagStep (tagWith t1) = .next t ∧ t.tagq = [rec1] ∧ t.win = [] ∧ t.skip = 0 := ⟨_, rfl, by decide⟩

/-- The trailer not there yet: SKIP counts it (43_tag_parser.md R307). -/
theorem test_tag_record_skips_the_trailer :
    ∃ t, exec (.tagRecord 0x0800#16 [0x11#8, 0x22#8] 0xF830#16 0x02#8) (tagWith (t1.take 12)) = .next t ∧ t.tagq = [rec1] ∧ t.skip = 3 :=
  ⟨_, rfl, by decide⟩

/-- 43_tag_parser.md R306's example: the burst ends inside a record. -/
theorem test_tag_underrun :
    ∃ t, exec .tagStep (endingWith (t1.take 8)) = .next t ∧ t.sticky = 0x00002000#32 ∧ t.win = (t1.take 8).drop 1 := ⟨_, rfl, by decide⟩

/-- V-T2: the buffer of §8 as literally written gives a record with no EPC. -/
theorem test_decode_of_v_t2 :
    tagDecode [0xA5#8, 0x5A#8, 0x00#8, 0x00#8, 0x00#8, 0x00#8, 0x10#8, 0x11#8, 0x22#8, 0xF8#8, 0x30#8, 0x02#8, 0x00#8, 0x00#8, 0x00#8] =
      [{ pc := 0x0010#16, epcLen := 0, epc := [], rssi := 0x1122#16, ant := 0xF8#8 }] := by decide

/-- 40_host_access.md R189's example: TX_CLR before TX_SEND in one word. -/
theorem test_cmd_write_clears_then_sends :
    ∃ t, exec (.cmdWrite 0x00000003#32) { base with txOpcode := 0x12#8, txbuf := [0x07#8] } = .next t ∧ t.txFrame = getPowerFrame ∧
      t.expOpcode = 0x13#8 := ⟨_, rfl, by decide⟩

/-- V-TX1's last byte: TX_DONE, STATUS 0x00000100. -/
theorem test_tx_accept_last_byte :
    ∃ t, exec .txAccept (sending 7) = .next t ∧ t.txwire = [0x0A#8] ∧ statusValue t = 0x00000100#32 := ⟨_, rfl, by decide⟩

/-- V-TX3: EXP_OPCODE wraps. -/
theorem test_tx_send_ack_opcode_wraps :
    ∃ t, exec .txSend { base with txOpcode := 0xFF#8 } = .next t ∧ t.expOpcode = 0x00#8 ∧
      t.txFrame = [0xA5#8, 0x5A#8, 0x00#8, 0x08#8, 0xFF#8, 0xF7#8, 0x0D#8, 0x0A#8] := ⟨_, rfl, by decide⟩

/-- V-H10: BLK_RESET keeps the bytes already on the wire and nothing else. -/
theorem test_blk_reset_keeps_txwire :
    exec .blkReset { sending 3 with txwire := [0xA5#8, 0x5A#8, 0x00#8] } = .next { base with txwire := [0xA5#8, 0x5A#8, 0x00#8] } := rfl

/-- V-H2 and V-H3: IE and CTRL keep their implemented bits. -/
theorem test_reserved_bits_are_not_stored :
    exec (.ieWrite 0xFFFFFFFF#32) base = .next { base with ie := 0x0007FF06#32 } ∧
    exec (.ctrlWrite 0xFFFFFFFF#32) base = .next { base with ctrl := 0x0000000F#32 } := ⟨rfl, rfl⟩

/-- The values of 44_commands.md R368 and R365 in V-E16. -/
theorem test_values : rssiDbm 0xF830#16 = -200 ∧ rawToDbm 0x07#8 0xD0#8 = 20 ∧ dbmToRaw 2000 = 0x07D0#16 := by
  refine ⟨?_, ?_, by decide⟩
  · have h : s16 0xF830#16 = -2000 := by decide
    simp only [rssiDbm, h]; norm_num
  · have h : s16 (be16 0x07#8 0xD0#8) = 2000 := by decide
    simp only [rawToDbm, h]; norm_num

/-! ### Witnesses: a concrete state and operands that meet each obligation's hypotheses -/

theorem witness_scheduledEntry :
    (sched [[0x44#8]]).pending = [0x44#8] :: [] ∧ decode (sched [[0x44#8]]).cfg.swResetOpcode [0x44#8] = .ok .delinStep ∧
    Instr.delinStep.wellFormed = true := ⟨rfl, rfl, rfl⟩

/-- Both forms, at both ends of the narrower sizes. -/
theorem witness_narrowHostAccess :
    (0x03#8).toNat < 4 ∧ (0x00#8).toNat < 4 ∧
    (sched [[0x57#8, 0x03#8, 0x00#8, 0x01#8]]).pending = (0x57#8 :: 0x03#8 :: 0x00#8 :: [0x01#8]) :: [] ∧
    (sched [[0x52#8, 0x00#8, 0x04#8]]).pending = [0x52#8, 0x00#8, 0x04#8] :: [] := ⟨by decide, by decide, rfl, rfl⟩

/-- A free step and an engine turn, with the engine enabled and not, and an unending run. -/
theorem witness_emptySchedule :
    ({ base with slack := 1 }.pending = [] ∧ { base with slack := 1 }.slack = 0 + 1) ∧
    (State.reset.pending = [] ∧ State.reset.slack = 0 ∧ engineEnabled (engineOfTurn State.reset.turn) State.reset = false) ∧
    ((rxWith ackFrame).pending = [] ∧ (rxWith ackFrame).slack = 0 ∧
      engineEnabled (engineOfTurn (rxWith ackFrame).turn) (rxWith ackFrame) = true) ∧
    ∃ run, run 0 = rxWith ackFrame ∧ IsRun run :=
  ⟨⟨rfl, rfl⟩, ⟨rfl, rfl, rfl⟩, ⟨rfl, rfl, by decide⟩, exists_run _ rfl⟩

theorem witness_noInstructionChangesParameters : ∃ t, exec .blkReset (sending 3) = .next t := ⟨_, rfl⟩

theorem witness_statusRead : (0x0007FF00#32 &&& ~~~0x0007FF00#32 : Word) = 0x00000000#32 ∧ base.sticky &&& ~~~0x0007FF00#32 = 0x00000000#32 := by
  decide

/-- The register reads: the invariants hold of a reset-like state, of one with a delivered frame, and of one with a record. -/
theorem witness_registerReads :
    Inv base ∧ base.slot.valid = false ∧ base.tagq = [] ∧ Inv withSlot ∧ withSlot.slot.valid = true ∧ Inv withTag ∧
    withTag.tagq = rec1 :: [] := ⟨by decide, rfl, rfl, by decide, rfl, by decide, rfl⟩

/-- A byte to pop, the last one read, and no frame. -/
theorem witness_rxDataRead :
    (withSlot.slot.valid = true ∧ withSlot.slot.ridx.toNat < withSlot.slot.pbuf.length) ∧
    ¬((advanceRidx withSlot).slot.valid = true ∧ (advanceRidx withSlot).slot.ridx.toNat < (advanceRidx withSlot).slot.pbuf.length) ∧
    ¬(base.slot.valid = true ∧ base.slot.ridx.toNat < base.slot.pbuf.length) := by decide

theorem witness_everyOffsetRead :
    (sched [[0x52#8, 0x04#8, 0x27#8]]).pending = encodeRead 0x27#8 :: [] ∧ (0x27#8 : Byte) &&& 0xFC#8 ≠ 0x28#8 ∧
    (0x2C#8 : Byte) &&& 0xFC#8 ≠ 0x28#8 := ⟨rfl, by decide, by decide⟩

/-- The first and the last address of the window, and those beside it. -/
theorem witness_hostAddresses :
    (sched [[0x72#8, 0x04#8, 0x40#8, 0x00#8, 0x00#8, 0xFF#8, 0x04#8]]).pending = encodeHostRead [0x40#8, 0x00#8, 0x00#8, 0xFF#8] :: [] ∧
    (sched [[0x77#8, 0x04#8, 0x40#8, 0x00#8, 0x00#8, 0x00#8, 0x04#8, 0x12#8, 0x34#8, 0x56#8, 0x78#8]]).pending =
      encodeHostWrite [0x40#8, 0x00#8, 0x00#8, 0x00#8] 0x12345678#32 :: [] ∧
    addressOf [0x40#8, 0x00#8, 0x00#8, 0x00#8] = base.cfg.rlfBase + (0x00#8 : Byte).toNat ∧
    addressOf [0x40#8, 0x00#8, 0x00#8, 0xFF#8] = base.cfg.rlfBase + (0xFF#8 : Byte).toNat ∧
    addressOf [0x3F#8, 0xFF#8, 0xFF#8, 0xFF#8] < base.cfg.rlfBase ∧
    base.cfg.rlfBase + 0xFF < addressOf [0x40#8, 0x00#8, 0x01#8, 0x00#8] := ⟨rfl, rfl, by decide, by decide, by decide, by decide⟩

/-- The lowest and the highest address of a register, and CMD. -/
theorem witness_everyOffsetWrite :
    (sched [[0x57#8, 0x04#8, 0x0F#8, 0x00#8, 0x00#8, 0x00#8, 0x21#8]]).pending = encodeWrite 0x0F#8 0x00000021#32 :: [] ∧
    (0x0F#8 : Byte) &&& 0xFC#8 = 0x0C#8 ∧ (0x03#8 : Byte) &&& 0xFC#8 = 0x00#8 ∧ (0x07#8 : Byte) &&& 0xFC#8 = 0x04#8 ∧
    (0x08#8 : Byte) &&& 0xFC#8 = 0x08#8 ∧ (0x13#8 : Byte) &&& 0xFC#8 = 0x10#8 ∧ (0x14#8 : Byte) &&& 0xFC#8 = 0x14#8 ∧
    (0x1F#8 : Byte) &&& 0xFC#8 = 0x1C#8 := by
  refine ⟨rfl, by decide, by decide, by decide, by decide, by decide, by decide, by decide⟩

/-- The read-only offset below 0x20 and the two ends of the range above it. -/
theorem witness_readOnlyWrite :
    (sched [[0x57#8, 0x04#8, 0x1B#8, 0x00#8, 0x00#8, 0x00#8, 0x01#8]]).pending = encodeWrite 0x1B#8 0x00000001#32 :: [] ∧
    (0x1B#8 : Byte) &&& 0xFC#8 = 0x18#8 ∧ 0x20 ≤ ((0x20#8 : Byte) &&& 0xFC#8).toNat ∧ 0x20 ≤ ((0xFF#8 : Byte) &&& 0xFC#8).toNat :=
  ⟨rfl, by decide, by decide, by decide⟩

theorem witness_cmdWrite :
    (0xFFFFFFFF#32 : Word).getLsbD 31 = true ∧ (0x7FFFFFFF#32 : Word).getLsbD 31 = false ∧
    ((0x7FFFFF00#32 : Word).getLsbD 31 = false ∧ ∀ i, i ≤ 7 → (0x7FFFFF00#32 : Word).getLsbD i = false) := by decide

theorem witness_cmdErr :
    (base.sticky.getLsbD 16 = false ∧ ∃ t, exec .txClr base = .next t) ∧
    (cmdErrCause .txClr (sending 0) = true ∧ (∀ v, Instr.txClr ≠ .ctrlWrite v) ∧ ∀ v, Instr.txClr ≠ .cmdWrite v) ∧
    ((0x00000003#32 : Word).getLsbD 1 = true ∧ (endingWith []).ending = true) ∧ base.slot.valid = false ∧ base.tagq = [] :=
  ⟨⟨by decide, _, rfl⟩, ⟨by decide, (by intro v h; cases h), (by intro v h; cases h)⟩, ⟨by decide, rfl⟩, rfl, rfl⟩

/-- Before the last byte and at it. -/
theorem witness_txAccept : (sending 6).txBusy = true ∧ (sending 7).txBusy = true ∧ (sending 7).txIdx + 1 = (sending 7).txFrame.length := by
  decide

theorem witness_aFrameIsTransmitted : base.txBusy = false := rfl

theorem noReset_txAccept : NoReset .txAccept := ⟨by decide, by decide, (by intro v h; cases h)⟩

theorem noReset_txOpcodeWrite (v : Word) : NoReset (.txOpcodeWrite v) :=
  ⟨Instr.noConfusion, Instr.noConfusion, by intro w h; cases h⟩

theorem witness_frameInFlight :
    NoReset (.txOpcodeWrite 0#32) ∧ (sending 0).txBusy = true ∧ (∃ t, exec (.txOpcodeWrite 0#32) (sending 0) = .next t) ∧
    Instr.txOpcodeWrite 0#32 ≠ .txAccept ∧ NoReset .txAccept ∧ ∃ t, exec .txAccept (sending 7) = .next t :=
  ⟨noReset_txOpcodeWrite _, rfl, ⟨_, rfl⟩, by decide, noReset_txAccept, _, rfl⟩

theorem witness_txwireGrows :
    (∃ t, exec .txAccept (sending 0) = .next t) ∧ (sending 0).txBusy = true ∧ (∃ t, exec .blkReset (sending 3) = .next t) ∧
    Instr.blkReset ≠ .txAccept ∧ Instr.blkReset ≠ .hardReset := ⟨⟨_, rfl⟩, rfl, ⟨_, rfl⟩, by decide, by decide⟩

theorem witness_transmitIsIndependent :
    IsTxStep .txAccept ∧ SameTx (sending 7) { sending 7 with ctrl := 0x0000000F#32, rxq := [0xA5#8] } ∧
    (∃ t, exec .txAccept (sending 7) = .next t) ∧
    ∃ t, exec .txAccept { sending 7 with ctrl := 0x0000000F#32, rxq := [0xA5#8] } = .next t :=
  ⟨.inr (.inr (.inl rfl)), ⟨rfl, rfl, rfl, rfl, rfl, rfl, rfl, rfl⟩, ⟨_, rfl⟩, _, rfl⟩

/-- One state for each result of `classify` that lets the delineator move. -/
theorem witness_delineator :
    ((rxWith [0x00#8]).ctrl.getLsbD 0 = true ∧ (rxWith [0x00#8]).slot.valid = false ∧ headClass (rxWith [0x00#8]) = .drop .sof) ∧
    headClass (rxWith [0xA5#8, 0x5A#8, 0x00#8, 0x07#8]) = .drop .len ∧
    headClass (rxWith [0xA5#8, 0x5A#8, 0x00#8, 0x08#8, 0x12#8, 0x1B#8, 0x0D#8, 0x0B#8]) = .drop (.cand false false) ∧
    headClass (rxOpen [0xA5#8, 0x5A#8, 0x00#8, 0x08#8, 0x12#8, 0x1B#8, 0x0D#8, 0x0B#8]) =
      .accept [0xA5#8, 0x5A#8, 0x00#8, 0x08#8, 0x12#8, 0x1B#8, 0x0D#8, 0x0B#8] 0x1A#8 false false := by decide

/-- A state with a frame behind noise, one that stops at an incomplete frame, one that finds none. -/
theorem witness_delineatorComputesTryParse :
    ((rxWith (0xA5#8 :: getPowerFrame)).ctrl.getLsbD 0 = true ∧ (rxWith (0xA5#8 :: getPowerFrame)).slot.valid = false) ∧
    tryParse 264 true true (0xA5#8 :: getPowerFrame) = .frame getPowerFrame 9 ∧
    tryParse 264 true true [0x00#8, 0xA5#8, 0x5A#8, 0x00#8] = .incomplete 1 ∧ tryParse 264 true true [0x00#8, 0xA5#8] = .notFound 1 := by
  decide

theorem witness_encodedFrameIsDelivered :
    (rxWith []).cfg.Valid ∧ (rxWith []).ctrl.getLsbD 0 = true ∧ (rxWith []).slot.valid = false ∧ (rxWith []).rxq = [] ∧
    (List.replicate 256 (0xA5#8 : Byte)).length ≤ (rxWith []).cfg.rxpDepth ∧ ([] : List Byte).length ≤ (rxWith []).cfg.rxpDepth := by
  refine ⟨by decide, by decide, by decide, rfl, ?_, by decide⟩
  rw [List.length_replicate]; decide

theorem witness_noiseBeforeAFrame :
    (rxWith (0x00#8 :: 0xA5#8 :: getPowerFrame)).cfg.Valid ∧ (rxWith (0x00#8 :: 0xA5#8 :: getPowerFrame)).ctrl.getLsbD 0 = true ∧
    (rxWith (0x00#8 :: 0xA5#8 :: getPowerFrame)).slot.valid = false ∧
    (rxWith (0x00#8 :: 0xA5#8 :: getPowerFrame)).rxq = [0x00#8, 0xA5#8] ++ frameEncode 0x12#8 [] ∧
    ∀ n, n < ([0x00#8, 0xA5#8] : List Byte).length →
      ∃ r, classify 264 true true ((0x00#8 :: 0xA5#8 :: getPowerFrame).drop n) = .drop r := by
  refine ⟨by decide, by decide, by decide, by decide, ?_⟩
  intro n h
  match n, h with
  | 0, _ => exact ⟨.sof, by decide⟩
  | 1, _ => exact ⟨.sof, by decide⟩

theorem witness_encodedFrameLayout : ([] : List Byte).length ≤ 65527 ∧ (List.replicate 65527 (0x00#8 : Byte)).length ≤ 65527 := by
  rw [List.length_replicate]; decide

/-- A frame whose checksum matches and one whose does not. -/
theorem witness_checksumResidue :
    8 ≤ getPowerFrame.length ∧ xor8 ((getPowerFrame.drop 2).take 4) = 0x00#8 ∧
    xor8 (([0xA5#8, 0x5A#8, 0x00#8, 0x08#8, 0x12#8, 0x1B#8, 0x0D#8, 0x0A#8].drop 2).take 4) ≠ 0x00#8 := by decide

/-- With the whole trailer in the window, and with none of it. -/
theorem witness_tagRecordIsEmitted :
    (tagWith t1).win =
      [0xA5#8, 0x5A#8, 0x00#8, 0x0F#8, 0x00#8, hi8 0x0800#16, lo8 0x0800#16] ++ [0x11#8, 0x22#8] ++
        [hi8 0xF830#16, lo8 0xF830#16, 0x02#8] ++ [0xFE#8, 0x0D#8, 0x0A#8] ∧
    ([0x11#8, 0x22#8] : List Byte).length = epcLength 0x0800#16 ∧ (tagWith t1).tagq.length < (tagWith t1).cfg.tagqDepth ∧
    (tagWith (t1.take 12)).win =
      [0xA5#8, 0x5A#8, 0x00#8, 0x0F#8, 0x00#8, hi8 0x0800#16, lo8 0x0800#16] ++ [0x11#8, 0x22#8] ++
        [hi8 0xF830#16, lo8 0xF830#16, 0x02#8] ++ [] := by decide

theorem witness_tagStepCases :
    tclass (tagWith [0xA5#8, 0x00#8]).win (tagWith [0xA5#8, 0x00#8]).ending = .skip1 ∧
    tclass (endingWith [0xA5#8]).win (endingWith [0xA5#8]).ending = .skip1 ∧
    tclass (endingWith (t1.take 11)).win (endingWith (t1.take 11)).ending = .underrun ∧
    ((endingWith []).ending = true ∧ (endingWith []).win = []) := by decide

/-- One window for each result of `tclass`, at the boundary of a record's bytes. -/
theorem witness_tagClassResults :
    tclass [] false = .idle ∧ tclass [0xA5#8] true = .skip1 ∧ tclass [0xA5#8] false = .wait ∧ tclass (t1.take 11) false = .wait ∧
    tclass (t1.take 11) true = .underrun ∧ tclass (t1.take 12) false = .record rec1 := by decide

theorem witness_tagClassIsMonotone : t1.take 12 ≠ [] ∧ tclass (t1.take 12) false ≠ .wait := by decide

theorem witness_fullWindow : 72 ≤ (List.replicate 72 (0xA5#8 : Byte)).length := by simp

/-- T1 byte by byte with a TAG_STEP after the first byte, then TAG_END, then four TAG_STEPs. -/
theorem witness_burst :
    (tagWith []).cfg.Valid ∧ (tagWith []).ctrl.getLsbD 1 = true ∧ (tagWith []).win = [] ∧ (tagWith []).skip = 0 ∧
    (tagWith []).ending = false ∧ (tagWith []).tagq = [] ∧
    (∀ i ∈ (.rxByte 0xA5#8 :: .tagStep :: (t1.drop 1).map .rxByte : List Instr), (∃ b, i = .rxByte b) ∨ i = .tagStep) ∧
    ∃ t u, execAll ((.rxByte 0xA5#8 :: .tagStep :: (t1.drop 1).map .rxByte) ++ [.tagEnd]) (tagWith []) = .next t ∧
      t.sticky.getLsbD 14 = false ∧ execAll (List.replicate 4 .tagStep) t = .next u ∧ u.ending = false ∧ u.tagq = [rec1] := by
  refine ⟨by decide, by decide, rfl, rfl, rfl, rfl, ?_, _, _, rfl, by decide +kernel, rfl, by decide +kernel, by decide +kernel⟩
  intro i hi
  simp only [List.mem_cons, List.mem_map] at hi
  rcases hi with h | h | ⟨b, -, h⟩
  · exact .inl ⟨_, h⟩
  · exact .inr h
  · exact .inl ⟨b, h.symm⟩

theorem witness_noByteEntersWhileEnding :
    (endingWith [0xA5#8]).ending = true ∧ (endingWith [0xA5#8]).ctrl.getLsbD 1 = false ∧
    ∃ t, exec (.ctrlWrite 0x0000000F#32) (endingWith [0xA5#8]) = .next t ∧ t.ending = true := ⟨rfl, by decide, _, rfl, by decide⟩

theorem witness_onlyHostCommandsDiscard :
    NoReset .txAccept ∧ (∃ t, exec .txAccept withSlot = .next t) ∧ Instr.txAccept ≠ .tagPop ∧ Instr.txAccept ≠ .tagFlush ∧
    Instr.txAccept ≠ .rxPop ∧ Instr.txAccept ≠ .rxFlush ∧ withSlot.slot.valid = true ∧
    (∀ v, Instr.txAccept = .cmdWrite v → v.getLsbD 4 = false ∧ v.getLsbD 6 = false) ∧
    ∀ v, Instr.txAccept = .cmdWrite v → v.getLsbD 2 = false ∧ v.getLsbD 3 = false :=
  ⟨noReset_txAccept, ⟨_, rfl⟩, by decide, by decide, by decide, by decide, rfl, (by intro v h; cases h), (by intro v h; cases h)⟩

theorem witness_requests :
    base.cfg.Valid ∧ base.txBusy = false ∧
    (Instr.softwareReset, 0xE0#8, []) ∈ requestTable base.cfg.swResetOpcode 0xFFFF#16 0#16 0#16 0xFF#8 := by decide

theorem witness_sendProgram :
    base.txBusy = false ∧ ([] : List Byte).length ≤ base.cfg.txpDepth ∧ (List.replicate 64 (0x00#8 : Byte)).length ≤ base.cfg.txpDepth := by
  decide

/-- At the fullest: 264 bytes in all. -/
theorem witness_acks :
    (rxWith []).ctrl.getLsbD 0 = true ∧ (rxWith []).ctrl.getLsbD 1 = false ∧
    (rxWith []).rxq.length + (List.replicate 256 (0x00#8 : Byte)).length + 8 ≤ (rxWith []).cfg.rxqDepth ∧
    (Instr.softwareResetAck [0x00#8], 0xE1#8) ∈ ackTable (rxWith []).cfg.swResetOpcode [0x00#8] := by
  refine ⟨by decide, by decide, ?_, by decide⟩
  rw [List.length_replicate]; decide

theorem witness_powerValues : (100 : Int) ≤ 100 ∧ (100 : Int) ≤ 3000 ∧ (3000 : Int) ≤ 3000 := by decide

theorem witness_stickyBits :
    NoReset .txAccept ∧ (∃ t, exec .txAccept { base with sticky := 0x00000100#32 } = .next t) ∧
    (0x00000100#32 : Word).getLsbD 8 = true ∧ ∀ v, Instr.txAccept = .statusW1c v → v.getLsbD 8 = false :=
  ⟨noReset_txAccept, ⟨_, rfl⟩, by decide, (by intro v h; cases h)⟩

/-- Each engine's step enabled and not, at each reason. -/
theorem witness_stepsNotEnabled :
    base.txBusy = false ∧
    (delinEnabled (rxWith [0x00#8]) = true ∧ delinEnabled base = false ∧ delinEnabled withSlot = false ∧
      delinEnabled (rxWith (getPowerFrame.take 7)) = false) ∧
    (tagEnabled (endingWith []) = true ∧ tagEnabled (tagWith (t1.take 12)) = true ∧ tagEnabled (endingWith (t1.take 11)) = true ∧
      tagEnabled (tagWith (t1.take 11)) = false ∧ tagEnabled base = false ∧ tagEnabled (tagqFull t1) = false) ∧
    tclass base.win base.ending ≠ .record { pc := 0#16, epcLen := epcLength 0#16, epc := [], rssi := 0#16, ant := 0#8 } ∧
    (sending 0).txBusy = true := by decide

/-- A state of a run, mid-frame, with a frame delivered and a record queued, and a step from it. -/
theorem witness_stepKeepsInvariants :
    Inv { sending 3 with slot := withSlot.slot, tagq := [rec1], pending := [[0x58#8]] } ∧
    ∃ t, step { sending 3 with slot := withSlot.slot, tagq := [rec1], pending := [[0x58#8]] } = .next t := ⟨by decide, _, rfl⟩

theorem witness_roundTrip : swResetAllowed 0xE0#8 = true ∧ (Instr.tagRecord 0xF800#16 (List.replicate 62 0#8) 0#16 0#8).wellFormed = true := by
  decide

theorem witness_decodedIsWellFormed : decode 0xE0#8 (0x41#8 :: ackFrame) = .ok (.setPowerAck [0x00#8]) := rfl

end Sys2Proof.Tests
end

section
/-! The scope family (00_scope.md R10, R11, R16): what a step runs, why every unending run is weakly fair, and where the engines hold.

First layer: no instruction touches the parameters or the schedule. -/

namespace Sys2Proof.Machine

/-- The fields no instruction touches: the parameters and the model's schedule (log 1, log 2, log 12). -/
def schedule (s : State) : Params × List (List Byte) × Nat × Nat := (s.cfg, s.pending, s.turn, s.slack)

theorem schedule_eq_iff (s t : State) :
    schedule t = schedule s ↔ t.cfg = s.cfg ∧ t.pending = s.pending ∧ t.turn = s.turn ∧ t.slack = s.slack := by
  simp [schedule]

/-! ### The unconditional updates an instruction is made of -/

@[simp] theorem raise_schedule (e : Event) (s : State) : schedule (raise e s) = schedule s := rfl
@[simp] theorem clearSticky_schedule (v : Word) (s : State) : schedule (clearSticky v s) = schedule s := rfl
@[simp] theorem busReturn_schedule (v : Word) (s : State) : schedule (busReturn v s) = schedule s := rfl
@[simp] theorem setCtrl_schedule (v : Word) (s : State) : schedule (setCtrl v s) = schedule s := rfl
@[simp] theorem setIe_schedule (v : Word) (s : State) : schedule (setIe v s) = schedule s := rfl
@[simp] theorem setTxOpcode_schedule (b : Byte) (s : State) : schedule (setTxOpcode b s) = schedule s := rfl
@[simp] theorem setExpOpcode_schedule (b : Byte) (s : State) : schedule (setExpOpcode b s) = schedule s := rfl
@[simp] theorem setTxbuf_schedule (p : List Byte) (s : State) : schedule (setTxbuf p s) = schedule s := rfl
@[simp] theorem latchFrame_schedule (s : State) : schedule (latchFrame s) = schedule s := rfl
@[simp] theorem emitByte_schedule (s : State) : schedule (emitByte s) = schedule s := rfl
@[simp] theorem endTransmit_schedule (s : State) : schedule (endTransmit s) = schedule s := rfl
@[simp] theorem appendRxq_schedule (b : Byte) (s : State) : schedule (appendRxq b s) = schedule s := rfl
@[simp] theorem dropRxq_schedule (s : State) : schedule (dropRxq s) = schedule s := rfl
@[simp] theorem clearRxq_schedule (s : State) : schedule (clearRxq s) = schedule s := rfl
@[simp] theorem deliver_schedule (f : List Byte) (c : Byte) (k e : Bool) (s : State) :
    schedule (deliver f c k e s) = schedule s := rfl
@[simp] theorem emptySlot_schedule (s : State) : schedule (emptySlot s) = schedule s := rfl
@[simp] theorem advanceRidx_schedule (s : State) : schedule (advanceRidx s) = schedule s := rfl
@[simp] theorem takeTrailerByte_schedule (s : State) : schedule (takeTrailerByte s) = schedule s := rfl
@[simp] theorem appendWin_schedule (b : Byte) (s : State) : schedule (appendWin b s) = schedule s := rfl
@[simp] theorem dropWin_schedule (s : State) : schedule (dropWin s) = schedule s := rfl
@[simp] theorem emitRecord_schedule (r : TagRecord) (s : State) : schedule (emitRecord r s) = schedule s := rfl
@[simp] theorem endBurst_schedule (s : State) : schedule (endBurst s) = schedule s := rfl
@[simp] theorem beginEnding_schedule (s : State) : schedule (beginEnding s) = schedule s := rfl
@[simp] theorem tagPop_schedule (s : State) : schedule (tagPop s) = schedule s := rfl
@[simp] theorem tagFlush_schedule (s : State) : schedule (tagFlush s) = schedule s := rfl
@[simp] theorem cntClr_schedule (s : State) : schedule (cntClr s) = schedule s := rfl
@[simp] theorem hardReset_schedule (s : State) : schedule (hardReset s) = schedule s := rfl
@[simp] theorem blkReset_schedule (s : State) : schedule (blkReset s) = schedule s := rfl
@[simp] theorem rxLineError_schedule (s : State) : schedule (rxLineError s) = schedule s := rfl

/-! ### The shared operations -/

@[simp] theorem ctrlWrite_schedule (v : Word) (s : State) : schedule (ctrlWrite v s) = schedule s := by
  rcases ctrlWrite_cases v s with ⟨-, -, e⟩ | ⟨-, e⟩ <;> simp [e]

@[simp] theorem txOpcodeWrite_schedule (v : Word) (s : State) : schedule (txOpcodeWrite v s) = schedule s := by
  rcases txOpcodeWrite_cases v s with ⟨-, e⟩ | ⟨-, e⟩ <;> simp [e]

@[simp] theorem txDataWrite_schedule (v : Word) (s : State) : schedule (txDataWrite v s) = schedule s := by
  rcases txDataWrite_cases v s with ⟨-, e⟩ | ⟨-, -, e⟩ | ⟨-, -, e⟩ <;> simp [e]

@[simp] theorem txClr_schedule (s : State) : schedule (txClr s) = schedule s := by
  rcases txClr_cases s with ⟨-, e⟩ | ⟨-, e⟩ <;> simp [e]

@[simp] theorem txSend_schedule (s : State) : schedule (txSend s) = schedule s := by
  rcases txSend_cases s with ⟨-, e⟩ | ⟨-, e⟩ <;> simp [e]

@[simp] theorem rxPop_schedule (s : State) : schedule (rxPop s) = schedule s := by
  rcases rxPop_cases s with ⟨-, e⟩ | ⟨-, e⟩ <;> simp [e]

@[simp] theorem rxFlush_schedule (s : State) : schedule (rxFlush s) = schedule s := by
  rcases rxFlush_cases s with ⟨-, e⟩ | ⟨-, e⟩ <;> simp [e]

@[simp] theorem tagEnd_schedule (s : State) : schedule (tagEnd s) = schedule s := by
  rcases tagEnd_cases s with ⟨-, e⟩ | ⟨-, e⟩ <;> simp [e]

@[simp] theorem rxDataRead_schedule (s : State) : schedule (rxDataRead s) = schedule s := by
  rcases rxDataRead_cases s with ⟨-, -, e⟩ | ⟨-, e⟩ <;> simp [e]

@[simp] theorem cmdWrite_schedule (v : Word) (s : State) : schedule (cmdWrite v s) = schedule s := by
  refine cmdWrite_induct (fun t => schedule t = schedule s) ?_ ?_ ?_ ?_ ?_ ?_ ?_ ?_ ?_ v s rfl <;>
    exact fun _ h => by simpa using h

@[simp] theorem pushParams_schedule (p : List Byte) (s : State) : schedule (pushParams p s) = schedule s :=
  pushParams_induct (fun t => schedule t = schedule s) (fun _ _ h => by simpa using h) p s rfl

@[simp] theorem hostSend_schedule (op : Byte) (p : List Byte) (s : State) : schedule (hostSend op p s) = schedule s := by
  rcases hostSend_cases op p s with ⟨-, e⟩ | ⟨-, e⟩ <;> simp [e]

@[simp] theorem tagFeed_schedule (b : Byte) (s : State) : schedule (tagFeed b s) = schedule s := by
  rcases tagFeed_cases b s with ⟨-, e⟩ | ⟨-, -, e⟩ | ⟨-, -, -, e⟩ | ⟨-, -, -, e⟩ <;> simp [e]

@[simp] theorem rxIntake_schedule (b : Byte) (s : State) : schedule (rxIntake b s) = schedule s := by
  rcases rxIntake_cases b s with ⟨-, e⟩ | ⟨-, -, e⟩ | ⟨-, -, e⟩ <;> simp [e]

@[simp] theorem rxByte_schedule (b : Byte) (s : State) : schedule (rxByte b s) = schedule s := by simp [rxByte]

@[simp] theorem rxResponse_schedule (op : Byte) (p : List Byte) (s : State) : schedule (rxResponse op p s) = schedule s :=
  rxBytes_induct (fun t => schedule t = schedule s) (fun _ _ h => by simpa using h) _ s rfl

@[simp] theorem txAccept_schedule (s : State) : schedule (txAccept s) = schedule s := by
  rcases txAccept_cases s with ⟨-, e⟩ | ⟨-, -, e⟩ | ⟨-, -, e⟩ <;> simp [e]

@[simp] theorem raiseChecks_schedule (k e : Bool) (s : State) : schedule (raiseChecks k e s) = schedule s := by
  rw [raiseChecks_eq]; rfl

@[simp] theorem delinStep_schedule (s : State) : schedule (delinStep s) = schedule s := by
  rcases delinStep_cases s with ⟨-, e⟩ | ⟨-, -, ⟨-, e⟩ | ⟨-, e⟩ | ⟨_, _, -, e⟩ | ⟨_, _, _, _, -, e⟩⟩ <;> simp [e]

@[simp] theorem tagStepRecord_schedule (r : TagRecord) (s : State) : schedule (tagStepRecord r s) = schedule s := by
  rcases tagStepRecord_cases r s with ⟨-, e⟩ | ⟨-, e⟩ <;> simp [e]

@[simp] theorem tagStep_schedule (s : State) : schedule (tagStep s) = schedule s := by
  rcases tagStep_cases s with ⟨-, -, e⟩ | ⟨-, -, e⟩ | ⟨-, e⟩ | ⟨-, e⟩ | ⟨-, e⟩ | ⟨_, -, e⟩ <;> simp [e]

@[simp] theorem tagRecordStep_schedule (r : TagRecord) (s : State) : schedule (tagRecordStep r s) = schedule s := by
  rcases tagRecordStep_cases r s with ⟨-, e⟩ | ⟨-, e⟩ <;> simp [e]

/-! ### Every instruction -/

/-- Every instruction answers a next state, with the parameters and the schedule it found. -/
theorem exec_next_schedule (i : Instr) (s : State) : ∃ t, exec i s = .next t ∧ schedule t = schedule s := by
  cases i <;> refine ⟨_, rfl, ?_⟩ <;> simp

theorem exec_schedule {i : Instr} {s t : State} (h : exec i s = .next t) : schedule t = schedule s := by
  obtain ⟨u, hu, hsched⟩ := exec_next_schedule i s
  cases hu.symm.trans h
  exact hsched

end Sys2Proof.Machine
end

section
/-! The step: what a scheduled entry and an empty schedule run, and how the schedule moves along a run. -/

namespace Sys2Proof.Machine

/-! ### A scheduled entry -/

theorem dropPending_eq {s : State} {m : List Byte} {rest : List (List Byte)} (h : s.pending = m :: rest) :
    dropPending s = { s with pending := rest } := by
  simp [dropPending, h]

/-- The bytes that name an access at a host address name no interface of RLF (log 3, log 22), so an entry RLF decodes is routed as it
stands. -/
theorem route_of_decode_ok {sw : Byte} {m : List Byte} {i : Instr} (base : Nat) (h : decode sw m = .ok i) :
    route base m = .rlf m := by
  cases m with
  | nil => rfl
  | cons k body =>
    refine route_own base k body ?_ ?_ <;> rintro rfl
    · cases (show decode sw (hostWriteKind :: body) = .error .unknownKind from rfl).symm.trans h
    · cases (show decode sw (hostReadKind :: body) = .error .unknownKind from rfl).symm.trans h

/-- Running an entry changes the schedule no further than taking it off did. -/
theorem runEntry_schedule {m : List Byte} {s t : State} (h : runEntry m s = .next t) : schedule t = schedule s := by
  rcases runEntry_cases m s with ⟨e, -, he⟩ | ⟨-, he⟩ | ⟨-, he⟩ <;> rw [he] at h
  · rcases runRlfEntry_cases e s with ⟨i, -, hi⟩ | ⟨err, -, herr⟩
    · exact exec_schedule (hi.symm.trans h)
    · exact absurd (herr.symm.trans h) (stopFor_ne_next err t)
  · cases h
    rfl
  · exact absurd h (stopFor_ne_next _ t)

/-! ### The free choice -/

theorem step_of_freeChoice_some {s : State} {i : Instr} (hp : s.pending = []) (h : freeChoice s = some i) :
    step s = exec i (countChoice s) := by
  rw [step_free s hp, runFreeChoice, h]

theorem step_of_freeChoice_none {s : State} (hp : s.pending = []) (h : freeChoice s = none) :
    step s = .next (countChoice s) := by
  rw [step_free s hp, runFreeChoice, h]

theorem countChoice_of_slack_succ {s : State} {k : Nat} (h : s.slack = k + 1) : countChoice s = { s with slack := k } := by
  simp [countChoice, spendSlack, h]

theorem countChoice_of_slack_zero {s : State} (h : s.slack = 0) :
    countChoice s = { s with turn := s.turn + 1, slack := Config.freeSteps (s.turn + 1) } := by
  simp [countChoice, nextTurn, h]

/-- A free step runs `Config.nextStep` where that is well-formed and no TX_ACCEPT (log 2). -/
theorem freeChoice_of_nextStep {s : State} (hslack : s.slack ≠ 0)
    (hwf : (Config.nextStep s.turn s.slack).wellFormed = true) (htx : Config.nextStep s.turn s.slack ≠ .txAccept) :
    freeChoice s = some (Config.nextStep s.turn s.slack) := by
  simp [freeChoice, freeStep, hslack, hwf, htx]

/-- An engine turn takes the step of the engine whose turn it is, where that is enabled. -/
theorem freeChoice_of_engineEnabled {s : State} (hslack : s.slack = 0)
    (h : engineEnabled (engineOfTurn s.turn) s = true) : freeChoice s = some (engineInstr (engineOfTurn s.turn)) := by
  simp [freeChoice, engineTurn, hslack, h]

theorem freeChoice_of_not_engineEnabled {s : State} (hslack : s.slack = 0)
    (h : engineEnabled (engineOfTurn s.turn) s = false) : freeChoice s = none := by
  simp [freeChoice, engineTurn, hslack, h]

/-! ### How a step moves the schedule -/

theorem step_schedule_of_pending {s t : State} {m : List Byte} {rest : List (List Byte)} (hp : s.pending = m :: rest)
    (h : step s = .next t) : schedule t = schedule { s with pending := rest } := by
  rw [step_pending s m rest hp, dropPending_eq hp] at h
  exact runEntry_schedule h

theorem step_schedule_of_free {s t : State} (hp : s.pending = []) (h : step s = .next t) :
    schedule t = schedule (countChoice s) := by
  cases hc : freeChoice s with
  | some i => exact exec_schedule ((step_of_freeChoice_some hp hc).symm.trans h)
  | none =>
    cases (step_of_freeChoice_none hp hc).symm.trans h
    rfl

end Sys2Proof.Machine
end

section
/-! Weak fairness (00_scope.md R11): the scheduled entries run out, the free steps before a turn run out, and so every engine turn
comes. -/

namespace Sys2Proof.Machine

/-- `s` is at the `n`-th engine turn: nothing scheduled, no free step left. -/
structure AtEngineTurn (n : Nat) (s : State) : Prop where
  unscheduled : s.pending = []
  noSlack : s.slack = 0
  turn_eq : s.turn = n

/-- At the turn of an enabled engine, the step is that engine's. -/
theorem AtEngineTurn.takes {n : Nat} {s : State} (h : AtEngineTurn n s)
    (he : engineEnabled (engineOfTurn n) s = true) : Takes (engineOfTurn n) s := by
  obtain ⟨hp, hslack, rfl⟩ := h
  refine ⟨engineInstr (engineOfTurn s.turn), ?_, .inl rfl⟩
  simp [nextInstr, hp, freeChoice_of_engineEnabled hslack he]

section
variable {run : Nat → State}

/-- The scheduled entries run out. -/
theorem IsRun.reaches_unscheduled (hrun : IsRun run) (n : Nat) : ∃ m, n ≤ m ∧ (run m).pending = [] := by
  generalize hp : (run n).pending = p
  induction p generalizing n with
  | nil => exact ⟨n, le_rfl, hp⟩
  | cons m rest ih =>
    obtain ⟨-, hrest, -, -⟩ := (schedule_eq_iff _ _).mp (step_schedule_of_pending hp (hrun n))
    obtain ⟨k, hk, hpk⟩ := ih (n + 1) hrest
    exact ⟨k, by omega, hpk⟩

/-- The free steps run out, and the engine turn they come before is reached. -/
theorem IsRun.reaches_current_turn (hrun : IsRun run) (n : Nat) (hp : (run n).pending = []) :
    ∃ m, n ≤ m ∧ AtEngineTurn (run n).turn (run m) := by
  generalize hk : (run n).slack = k
  induction k generalizing n with
  | zero => exact ⟨n, le_rfl, hp, hk, rfl⟩
  | succ k ih =>
    have hsched := step_schedule_of_free hp (hrun n)
    rw [countChoice_of_slack_succ hk] at hsched
    obtain ⟨-, hpending, hturn, hslack⟩ := (schedule_eq_iff _ _).mp hsched
    obtain ⟨m, hm, hat⟩ := ih (n + 1) (hpending.trans hp) hslack
    rw [hturn] at hat
    exact ⟨m, by omega, hat⟩

/-- After an engine turn the next one is reached. -/
theorem IsRun.reaches_next_turn (hrun : IsRun run) {n j : Nat} (hat : AtEngineTurn j (run n)) :
    ∃ m, n ≤ m ∧ AtEngineTurn (j + 1) (run m) := by
  obtain ⟨hp, hslack, rfl⟩ := hat
  have hsched := step_schedule_of_free hp (hrun n)
  rw [countChoice_of_slack_zero hslack] at hsched
  obtain ⟨-, hpending, hturn, -⟩ := (schedule_eq_iff _ _).mp hsched
  obtain ⟨m, hm, hat⟩ := hrun.reaches_current_turn (n + 1) (hpending.trans hp)
  rw [hturn] at hat
  exact ⟨m, by omega, hat⟩

/-- Every later engine turn is reached. -/
theorem IsRun.reaches_turn (hrun : IsRun run) {n i : Nat} (hat : AtEngineTurn i (run n)) (j : Nat) (hj : i ≤ j) :
    ∃ m, n ≤ m ∧ AtEngineTurn j (run m) := by
  induction j, hj using Nat.le_induction with
  | base => exact ⟨n, le_rfl, hat⟩
  | succ j _ ih =>
    obtain ⟨m, hm, hatj⟩ := ih
    obtain ⟨k, hk, hatk⟩ := hrun.reaches_next_turn hatj
    exact ⟨k, by omega, hatk⟩

/-- Every engine has a turn after any point of an unending run. -/
theorem IsRun.reaches_turn_of (hrun : IsRun run) (e : Engine) (n : Nat) :
    ∃ m j, n ≤ m ∧ engineOfTurn j = e ∧ AtEngineTurn j (run m) := by
  obtain ⟨a, hna, hp⟩ := hrun.reaches_unscheduled n
  obtain ⟨b, hab, hatb⟩ := hrun.reaches_current_turn a hp
  obtain ⟨j, hj, he⟩ := engineOfTurn_recurs e (run a).turn
  obtain ⟨m, hbm, hatm⟩ := hrun.reaches_turn hatb j hj
  exact ⟨m, j, by omega, he, hatm⟩

theorem IsRun.weaklyFair (hrun : IsRun run) : WeaklyFair run := by
  intro e n henabled
  obtain ⟨m, j, hm, rfl, hat⟩ := hrun.reaches_turn_of e n
  exact ⟨m, hm, hat.takes (henabled m hm)⟩

end

/-! ### The obligations about the step -/

/-- Settles O1: an entry RLF decodes is routed to RLF as it stands, and is then run on the state without it. -/
theorem scheduledEntryRunsItsInstruction : Obligations.ScheduledEntryRunsItsInstruction := by
  intro s m rest i hp hd _
  have hroute : route s.cfg.rlfBase m = .rlf m := route_of_decode_ok _ hd
  rw [step_pending s m rest hp, dropPending_eq hp]
  simp [runEntry, hroute, runRlfEntry, hd]

/-- Settles O3: the two forms of the free choice by what `freeChoice` names, and weak fairness because every engine turn is reached. -/
theorem emptyScheduleTakesTheFreeChoice : Obligations.EmptyScheduleTakesTheFreeChoice := by
  refine ⟨fun s hp => ⟨fun k hk => ?_, fun hslack => ?_⟩, fun _ hrun => hrun.weaklyFair⟩
  · refine ⟨_, rfl, ?_, fun hwf htx => ?_⟩ <;> rw [← countChoice_of_slack_succ hk]
    · rcases freeChoice_cases s with ⟨h, -⟩ | ⟨h, -⟩ | ⟨-, -, hc⟩ | ⟨-, hc⟩
      · omega
      · omega
      · exact .inl (step_of_freeChoice_some hp hc)
      · exact .inr (step_of_freeChoice_none hp hc)
    · exact step_of_freeChoice_some hp (freeChoice_of_nextStep (by omega) hwf htx)
  · refine ⟨_, rfl, fun he => ?_, fun he => ?_⟩ <;> rw [← countChoice_of_slack_zero hslack]
    · exact step_of_freeChoice_some hp (freeChoice_of_engineEnabled hslack he)
    · exact step_of_freeChoice_none hp (freeChoice_of_not_engineEnabled hslack he)

end Sys2Proof.Machine
end

section
/-! Where the engines hold (00_scope.md R16; log 6): an enabled engine step always moves the state, because it takes a byte off a
buffer, fills the slot, ends the burst, queues a record or emits a byte. -/

namespace Sys2Proof.Machine

open Sys2Proof.Statements

theorem drop_one_ne_self {l : List Byte} (h : l ≠ []) : l.drop 1 ≠ l := by
  intro hdrop
  have hlen := congrArg List.length hdrop
  have hpos := List.length_pos_of_ne_nil h
  rw [List.length_drop] at hlen
  omega

/-! ### The delineator -/

theorem rxq_ne_nil_of_rxClass_drop {s : State} {r : DropReason} (h : rxClass s = .drop r) : s.rxq ≠ [] := by
  intro hq
  simp [rxClass, classify, hq] at h

theorem dropRxq_ne {s u : State} (hq : s.rxq ≠ []) (hu : u.rxq = s.rxq) : dropRxq u ≠ s := by
  intro h
  exact drop_one_ne_self hq (by simpa [hu] using congrArg State.rxq h)

theorem deliver_ne {s u : State} (f : List Byte) (c : Byte) (k e : Bool) (hv : s.slot.valid = false) :
    deliver f c k e u ≠ s := by
  rintro rfl
  exact absurd hv (by simp [slotOf])

theorem raiseChecks_rxq (k e : Bool) (s : State) : (raiseChecks k e s).rxq = s.rxq := by
  rw [raiseChecks_eq]

theorem delinStep_eq_self_iff (s : State) : delinStep s = s ↔ delinEnabled s = false := by
  rw [← Bool.not_eq_true, delinEnabled_iff]
  rcases delinStep_cases s with ⟨hoff, e⟩ | ⟨hx, hv, hclass⟩
  · rw [e]
    refine iff_of_true rfl ?_
    rintro ⟨hx, hv, hw⟩
    rcases hoff with h | h | h
    · simp [hx] at h
    · simp [hv] at h
    · exact hw h
  · have hmoves : rxClass s ≠ .wait ∧ delinStep s ≠ s := by
      rcases hclass with ⟨hc, e⟩ | ⟨hc, e⟩ | ⟨k, o, hc, e⟩ | ⟨f, c, k, o, hc, e⟩ <;> refine ⟨by simp [hc], ?_⟩ <;> rw [e]
      · exact dropRxq_ne (rxq_ne_nil_of_rxClass_drop hc) rfl
      · exact dropRxq_ne (rxq_ne_nil_of_rxClass_drop hc) rfl
      · exact dropRxq_ne (rxq_ne_nil_of_rxClass_drop hc) (raiseChecks_rxq k o s)
      · exact deliver_ne f c k o hv
    exact iff_of_false hmoves.2 (not_not_intro ⟨hx, hv, hmoves.1⟩)

/-! ### The tag engine -/

theorem tclass_eq_idle_iff (w : List Byte) (e : Bool) : tclass w e = .idle ↔ w = [] := by
  rcases tclass_cases w e with ⟨hw, h⟩ | ⟨hw, -, h⟩ | ⟨hw, h⟩ | ⟨hw, -, h⟩ | ⟨hw, h⟩
  · exact iff_of_true h hw
  · simp [hw, h]
  · simp [hw, h]
  · simp [hw, h]
  · have hne : w ≠ [] := by
      rintro rfl
      simp [recordNeed] at hw
    simp [hne, h]

/-- TagStep is enabled exactly as 43_tag_parser.md R303 says. -/
theorem tagEnabled_iff (s : State) :
    tagEnabled s = true ↔ tclass s.win s.ending = .skip1 ∨ tclass s.win s.ending = .underrun ∨ (s.win = [] ∧ s.ending = true) ∨
      ∃ r, tclass s.win s.ending = .record r ∧ s.tagq.length < s.cfg.tagqDepth := by
  rw [← tclass_eq_idle_iff s.win s.ending]
  rcases tagEnabled_cases s with ⟨hon, ⟨h, he⟩ | h | h | ⟨r, h, hq⟩⟩ | ⟨hoff, ⟨h, he⟩ | h | ⟨r, h, hq⟩⟩
  · exact iff_of_true hon (.inr (.inr (.inl ⟨h, he⟩)))
  · exact iff_of_true hon (.inl h)
  · exact iff_of_true hon (.inr (.inl h))
  · exact iff_of_true hon (.inr (.inr (.inr ⟨r, h, hq⟩)))
  all_goals refine iff_of_false (by simp [hoff]) ?_; rw [h]
  · simp [he]
  · simp
  · simp [hq]

theorem dropWin_ne {s u : State} (hw : s.win ≠ []) (hu : u.win = s.win) : dropWin u ≠ s := by
  intro h
  exact drop_one_ne_self hw (by simpa [hu] using congrArg State.win h)

theorem emitRecord_ne (r : TagRecord) (s : State) : emitRecord r s ≠ s := by
  intro h
  simpa using congrArg State.tagq h

/-- TagStep moves the state exactly where it is enabled: it ends the burst, takes a byte off W, or queues a record. -/
theorem tagStep_eq_self_iff (s : State) : tagStep s = s ↔ tagEnabled s = false := by
  have hwin : tclass s.win s.ending ≠ .idle → s.win ≠ [] := mt (tclass_eq_idle_iff s.win s.ending).mpr
  rcases tagStep_cases s with ⟨hc, he, e⟩ | ⟨hc, he, e⟩ | ⟨hc, e⟩ | ⟨hc, e⟩ | ⟨hc, e⟩ | ⟨r, hc, e⟩ <;> rw [e, tagEnabled, hc]
  · exact iff_of_false (fun h => by simpa [he] using congrArg State.ending h) (by simp [he])
  · exact iff_of_true rfl he
  · exact iff_of_true rfl rfl
  · exact iff_of_false (dropWin_ne (hwin (by simp [hc])) rfl) (by simp)
  · exact iff_of_false (dropWin_ne (hwin (by simp [hc])) rfl) (by simp)
  · rcases tagStepRecord_cases r s with ⟨hq, er⟩ | ⟨hq, er⟩ <;> rw [er]
    · exact iff_of_false (emitRecord_ne r s) (by simp [hq])
    · exact iff_of_true rfl (by simp [hq])

/-! ### The UART transmit side and the host's requests -/

/-- Every byte the UART takes is one more on TXWIRE (41_tx_framer.md R226). -/
theorem txAccept_eq_self_iff (s : State) : txAccept s = s ↔ s.txBusy = false := by
  rcases txAccept_cases s with ⟨hb, e⟩ | ⟨hb, -, e⟩ | ⟨hb, -, e⟩ <;> rw [e]
  · simp [hb]
  · refine iff_of_false (fun h => ?_) (by simp [hb])
    simpa using congrArg State.txwire h
  · refine iff_of_false (fun h => ?_) (by simp [hb])
    simpa using congrArg State.txwire h

theorem hostSend_of_txBusy {s : State} (op : Byte) (p : List Byte) (h : s.txBusy = true) :
    hostSend op p s = busReturn (statusValue s) s := by
  simp [hostSend, h]

/-- Every request row is the `send` of its opcode and PARAMS (30_encoding.md R146; log 7). -/
theorem exec_request (s : State) (x y z : Half) (m : Byte) :
    ∀ c ∈ requestTable s.cfg.swResetOpcode x y z m, exec c.1 s = .next (hostSend c.2.1 c.2.2 s) := by
  simp only [requestTable, List.forall_mem_cons]
  exact ⟨rfl, rfl, rfl, rfl, rfl, rfl, rfl, rfl, rfl, rfl, rfl, by simp⟩

/-- Settles O55: each engine step holds exactly where it is not enabled, and a failed poll has only read STATUS. -/
theorem stepsNotEnabledHold : Obligations.StepsNotEnabledHold := by
  intro s
  have next_iff (t : State) : (Host.Outcome.next t : Host.Outcome State Fault Refusal) = .next s ↔ t = s := by simp
  refine ⟨delinEnabled_iff s, tagEnabled_iff s, ?_, ?_, ?_, fun pc epc rssi ant h => ?_, fun x y z m hb c hc => ?_⟩
  · exact (next_iff _).trans (delinStep_eq_self_iff s)
  · exact (next_iff _).trans (tagStep_eq_self_iff s)
  · exact (next_iff _).trans (txAccept_eq_self_iff s)
  · exact (next_iff _).mpr (if_neg h)
  · rw [exec_request s x y z m c hc, hostSend_of_txBusy _ _ hb]
    rfl

end Sys2Proof.Machine
end

section
/-! The state family (10_state.md): what an instruction is made of. Every instruction but TX_ACCEPT, the STATUS write and the resets is a
run of guarded updates; a property those keep is kept by every instruction, and so by every step. -/

namespace Sys2Proof.Machine

/-! ### Guarded updates -/

/-- One unconditional update of Machine/Ops.lean together with the guard the rules put on it. -/
inductive Update : State → State → Prop where
  | raise (e : Event) (s : State) : Update s (raise e s)
  | busReturn (v : Word) (s : State) : Update s (busReturn v s)
  | setCtrl (eof chk tag rxf : Bool) (s : State) (hEnding : tag = true → s.ending = false) :
      Update s (setCtrl (ctrlWord eof chk tag rxf) s)
  | setIe (v : Word) (s : State) : Update s (setIe (v &&& ieMask) s)
  | setTxOpcode (b : Byte) (s : State) (hIdle : s.txBusy = false) : Update s (setTxOpcode b s)
  | setExpOpcode (b : Byte) (s : State) : Update s (setExpOpcode b s)
  | pushTxbuf (b : Byte) (s : State) (hIdle : s.txBusy = false) (hRoom : s.txbuf.length ≠ s.cfg.txpDepth) :
      Update s (setTxbuf (s.txbuf ++ [b]) s)
  | clearTxbuf (s : State) (hIdle : s.txBusy = false) : Update s (setTxbuf [] s)
  | latchFrame (s : State) (hIdle : s.txBusy = false) : Update s (latchFrame s)
  | appendRxq (b : Byte) (s : State) (hRoom : s.rxq.length < s.cfg.rxqDepth) : Update s (appendRxq b s)
  | dropRxq (s : State) : Update s (dropRxq s)
  | clearRxq (s : State) : Update s (clearRxq s)
  | deliver (f : List Byte) (c : Byte) (k e : Bool) (s : State) (hFree : s.slot.valid = false)
      (hClass : rxClass s = .accept f c k e) : Update s (deliver f c k e s)
  | emptySlot (s : State) : Update s (emptySlot s)
  | advanceRidx (s : State) (hValid : s.slot.valid = true) (hMore : s.slot.ridx.toNat < rxPlen s) : Update s (advanceRidx s)
  | takeTrailerByte (s : State) : Update s (takeTrailerByte s)
  | appendWin (b : Byte) (s : State) (hOpen : tagEn s = true) (hSkip : s.skip = 0) (hRoom : s.win.length < s.cfg.tagwDepth) :
      Update s (appendWin b s)
  | dropWin (s : State) : Update s (dropWin s)
  | emitRecord (r : TagRecord) (s : State) (hClass : tclass s.win s.ending = .record r)
      (hRoom : s.tagq.length < s.cfg.tagqDepth) : Update s (emitRecord r s)
  | endBurst (s : State) : Update s (endBurst s)
  | beginEnding (s : State) : Update s (beginEnding s)
  | dropRecord (s : State) : Update s (dropRecord s)
  | tagFlush (s : State) : Update s (tagFlush s)
  | cntClr (s : State) : Update s (cntClr s)

/-- Guarded updates one after another. -/
abbrev Updates : State → State → Prop := Relation.ReflTransGen Update

theorem Updates.refl (s : State) : Updates s s := Relation.ReflTransGen.refl

/-- A property every guarded update keeps is kept by a run of them. -/
theorem Updates.keeps {P : State → Prop} (hUpdate : ∀ {s t}, Update s t → P s → P t) {s t : State} (h : Updates s t) (hs : P s) :
    P t := by
  induction h with
  | refl => exact hs
  | tail _ hstep ih => exact hUpdate hstep ih

/-! ### The shared operations are runs of guarded updates -/

theorem updates_ctrlWrite (v : Word) (s : State) : Updates s (ctrlWrite v s) := by
  rcases ctrlWrite_cases v s with ⟨-, -, e⟩ | ⟨h, e⟩ <;> rw [e]
  · exact .tail (.single (.raise .cmdErr s)) (.setCtrl _ _ _ _ _ (by simp))
  · exact .single (.setCtrl _ _ _ _ s (fun hv => by simpa [hv] using h))

theorem updates_txOpcodeWrite (v : Word) (s : State) : Updates s (txOpcodeWrite v s) := by
  rcases txOpcodeWrite_cases v s with ⟨-, e⟩ | ⟨hb, e⟩ <;> rw [e]
  · exact .single (.raise .cmdErr s)
  · exact .single (.setTxOpcode _ s hb)

theorem updates_txDataWrite (v : Word) (s : State) : Updates s (txDataWrite v s) := by
  rcases txDataWrite_cases v s with ⟨-, e⟩ | ⟨-, -, e⟩ | ⟨hb, hroom, e⟩ <;> rw [e]
  · exact .single (.raise .cmdErr s)
  · exact .single (.raise .txpOvf s)
  · exact .single (.pushTxbuf _ s hb hroom)

theorem updates_txClr (s : State) : Updates s (txClr s) := by
  rcases txClr_cases s with ⟨-, e⟩ | ⟨hb, e⟩ <;> rw [e]
  · exact .single (.raise .cmdErr s)
  · exact .single (.clearTxbuf s hb)

theorem updates_txSend (s : State) : Updates s (txSend s) := by
  rcases txSend_cases s with ⟨-, e⟩ | ⟨hb, e⟩ <;> rw [e]
  · exact .single (.raise .cmdErr s)
  · exact .single (.latchFrame s hb)

theorem updates_rxPop (s : State) : Updates s (rxPop s) := by
  rcases rxPop_cases s with ⟨-, e⟩ | ⟨-, e⟩ <;> rw [e]
  exact .single (.emptySlot s)

theorem updates_rxFlush (s : State) : Updates s (rxFlush s) :=
  .head (.clearRxq s) (updates_rxPop (clearRxq s))

theorem updates_tagEnd (s : State) : Updates s (tagEnd s) := by
  rcases tagEnd_cases s with ⟨-, e⟩ | ⟨-, e⟩ <;> rw [e]
  · exact .single (.raise .cmdErr s)
  · exact .single (.beginEnding s)

theorem updates_rxDataRead (s : State) : Updates s (rxDataRead s) := by
  rcases rxDataRead_cases s with ⟨hv, hmore, e⟩ | ⟨-, e⟩ <;> rw [e]
  · exact .tail (.single (.busReturn _ s)) (.advanceRidx _ hv hmore)
  · exact .single (.busReturn _ s)

theorem updates_whenBit {f : State → State} (hf : ∀ s, Updates s (f s)) (v : Word) (i : Nat) (s : State) :
    Updates s (whenBit v i f s) := by
  rcases whenBit_cases v i f s with ⟨-, e⟩ | ⟨-, e⟩ <;> rw [e]
  exact hf s

/-- A CMD word without BLK_RESET runs its commands in R189's order. -/
theorem updates_cmdWrite {v : Word} (h : v.getLsbD 31 = false) (s : State) : Updates s (cmdWrite v s) := by
  have run {t u : State} (ht : Updates s t) (hu : Updates t u) : Updates s u := ht.trans hu
  rw [cmdWrite, if_neg (ne_true_of_eq_false h)]
  refine run ?_ (updates_whenBit (fun t => .single (.cntClr t)) v 7 _)
  refine run ?_ (updates_whenBit updates_txSend v 0 _)
  refine run ?_ (updates_whenBit updates_txClr v 1 _)
  refine run ?_ (updates_whenBit updates_tagEnd v 5 _)
  refine run ?_ (updates_whenBit (fun t => .single (.dropRecord t)) v 4 _)
  refine run ?_ (updates_whenBit (fun t => .single (.tagFlush t)) v 6 _)
  refine run ?_ (updates_whenBit updates_rxPop v 2 _)
  exact updates_whenBit updates_rxFlush v 3 s

theorem updates_pushParams (p : List Byte) (s : State) : Updates s (pushParams p s) :=
  pushParams_induct (Updates s) (fun _ _ h => h.trans (updates_txDataWrite _ _)) p s (.refl s)

theorem updates_hostSend (op : Byte) (p : List Byte) (s : State) : Updates s (hostSend op p s) := by
  rcases hostSend_cases op p s with ⟨-, e⟩ | ⟨-, e⟩ <;> rw [e]
  · exact .single (.busReturn _ s)
  · exact .head (.busReturn (statusValue s) s) ((updates_txClr _).trans ((updates_txOpcodeWrite _ _).trans
      ((updates_pushParams p _).trans (updates_txSend _))))

theorem updates_tagFeed (b : Byte) (s : State) : Updates s (tagFeed b s) := by
  rcases tagFeed_cases b s with ⟨-, e⟩ | ⟨-, -, e⟩ | ⟨hopen, hskip, hroom, e⟩ | ⟨-, -, -, e⟩ <;> rw [e]
  · exact .single (.takeTrailerByte s)
  · exact .single (.appendWin b s hopen hskip hroom)
  · exact .single (.raise .tagOvf s)

theorem updates_rxIntake (b : Byte) (s : State) : Updates s (rxIntake b s) := by
  rcases rxIntake_cases b s with ⟨-, e⟩ | ⟨-, hroom, e⟩ | ⟨-, -, e⟩ <;> rw [e]
  · exact .single (.appendRxq b s hroom)
  · exact .single (.raise .rxOvf s)

theorem updates_rxByte (b : Byte) (s : State) : Updates s (rxByte b s) :=
  (updates_rxIntake b s).trans (updates_tagFeed b _)

theorem updates_rxResponse (op : Byte) (p : List Byte) (s : State) : Updates s (rxResponse op p s) :=
  rxBytes_induct (Updates s) (fun b _ h => h.trans (updates_rxByte b _)) _ s (.refl s)

theorem updates_raiseChecks (k e : Bool) (s : State) : Updates s (raiseChecks k e s) := by
  cases k <;> cases e
  · exact .tail (.single (.raise .chkErr s)) (.raise .eofErr _)
  · exact .single (.raise .chkErr s)
  · exact .single (.raise .eofErr s)
  · exact .refl s

theorem updates_delinStep (s : State) : Updates s (delinStep s) := by
  rcases delinStep_cases s with ⟨-, e⟩ | ⟨-, hfree, ⟨-, e⟩ | ⟨-, e⟩ | ⟨k, o, -, e⟩ | ⟨f, c, k, o, hclass, e⟩⟩ <;> rw [e]
  · exact .single (.dropRxq s)
  · exact .tail (.single (.raise .lenErr s)) (.dropRxq _)
  · exact (updates_raiseChecks k o s).tail (.dropRxq _)
  · refine (updates_raiseChecks k o s).tail (.deliver f c k o _ ?_ ?_) <;> rw [raiseChecks_eq]
    · exact hfree
    · exact hclass

theorem updates_tagStepRecord {r : TagRecord} {s : State} (h : tclass s.win s.ending = .record r) :
    Updates s (tagStepRecord r s) := by
  rcases tagStepRecord_cases r s with ⟨hroom, e⟩ | ⟨-, e⟩ <;> rw [e]
  exact .single (.emitRecord r s h hroom)

theorem updates_tagStep (s : State) : Updates s (tagStep s) := by
  rcases tagStep_cases s with ⟨-, -, e⟩ | ⟨-, -, e⟩ | ⟨-, e⟩ | ⟨-, e⟩ | ⟨-, e⟩ | ⟨r, hclass, e⟩ <;> rw [e]
  · exact .tail (.single (.endBurst s)) (.raise .tagDone _)
  · exact .single (.dropWin s)
  · exact .tail (.single (.raise .tagUnderrun s)) (.dropWin _)
  · exact updates_tagStepRecord hclass

theorem updates_tagRecordStep (r : TagRecord) (s : State) : Updates s (tagRecordStep r s) := by
  rcases tagRecordStep_cases r s with ⟨hclass, e⟩ | ⟨-, e⟩ <;> rw [e]
  exact updates_tagStepRecord hclass

/-! ### Every instruction and every step -/

/-- What an instruction does to the state: the four kinds that clear sticky bits or move TXWIRE apart, a run of guarded updates. -/
inductive Effect : Instr → State → State → Prop where
  | txAccept (s : State) : Effect .txAccept s (txAccept s)
  | statusW1c (v : Word) (s : State) : Effect (.statusW1c v) s (clearSticky v s)
  | hardReset (s : State) : Effect .hardReset s (hardReset s)
  | blkReset (s : State) : Effect .blkReset s (blkReset s)
  | cmdReset (v : Word) (s : State) (h : v.getLsbD 31 = true) : Effect (.cmdWrite v) s (blkReset s)
  | updates {i : Instr} {s t : State} (h : Updates s t) : Effect i s t

theorem exec_next_effect (i : Instr) (s : State) : ∃ t, exec i s = .next t ∧ Effect i s t := by
  cases i with
  | setPower _ _ _ | getPower | setAntenna _ _ | getAntenna | setRfMode _ _ | getRfMode _ | setDwell _ _ _ | getDwell
  | inventoryStart _ | inventoryStop | softwareReset => exact ⟨_, rfl, .updates (updates_hostSend _ _ s)⟩
  | setPowerAck _ | getPowerAck _ | setAntennaAck _ | getAntennaAck _ | setRfModeAck _ | getRfModeAck _ | setDwellAck _
  | getDwellAck _ | inventoryStartAck _ | inventoryStopAck _ | softwareResetAck _ =>
    exact ⟨_, rfl, .updates (updates_rxResponse _ _ s)⟩
  | tagRecord _ _ _ _ => exact ⟨_, rfl, .updates (updates_tagRecordStep _ s)⟩
  | txSend => exact ⟨_, rfl, .updates (updates_txSend s)⟩
  | txClr => exact ⟨_, rfl, .updates (updates_txClr s)⟩
  | rxPop => exact ⟨_, rfl, .updates (updates_rxPop s)⟩
  | rxFlush => exact ⟨_, rfl, .updates (updates_rxFlush s)⟩
  | tagPop => exact ⟨_, rfl, .updates (.single (.dropRecord s))⟩
  | tagEnd => exact ⟨_, rfl, .updates (updates_tagEnd s)⟩
  | tagFlush => exact ⟨_, rfl, .updates (.single (.tagFlush s))⟩
  | cntClr => exact ⟨_, rfl, .updates (.single (.cntClr s))⟩
  | blkReset => exact ⟨_, rfl, .blkReset s⟩
  | ctrlWrite v => exact ⟨_, rfl, .updates (updates_ctrlWrite v s)⟩
  | statusW1c v => exact ⟨_, rfl, .statusW1c v s⟩
  | ieWrite v => exact ⟨_, rfl, .updates (.single (.setIe v s))⟩
  | cmdWrite v =>
    refine ⟨cmdWrite v s, rfl, ?_⟩
    cases hv : v.getLsbD 31
    · exact .updates (updates_cmdWrite hv s)
    · rw [cmdWrite, if_pos hv]
      exact .cmdReset v s hv
  | txOpcodeWrite v => exact ⟨_, rfl, .updates (updates_txOpcodeWrite v s)⟩
  | txDataWrite v => exact ⟨_, rfl, .updates (updates_txDataWrite v s)⟩
  | expOpcodeWrite _ => exact ⟨_, rfl, .updates (.single (.setExpOpcode _ s))⟩
  | roOrUnmappedWrite _ _ => exact ⟨_, rfl, .updates (.refl s)⟩
  | ctrlRead | statusRead | ieRead | txOpcodeRead | txPlenRead | expOpcodeRead | rxHdrRead | rxInfoRead | rxRidxRead
  | tagHdrRead | tagRssiRead | levelsRead | cntRxdropRead | cntFramesRead | cntTagsRead | cfg0Read | cfg1Read
  | tagEpcRead _ | unmappedOrWoRead _ => exact ⟨_, rfl, .updates (.single (.busReturn _ s))⟩
  | rxDataRead => exact ⟨_, rfl, .updates (updates_rxDataRead s)⟩
  | rxByte b => exact ⟨_, rfl, .updates (updates_rxByte b s)⟩
  | tagFeed b => exact ⟨_, rfl, .updates (updates_tagFeed b s)⟩
  | rxLineError => exact ⟨_, rfl, .updates (.single (.raise .xportErr s))⟩
  | txAccept => exact ⟨_, rfl, .txAccept s⟩
  | delinStep => exact ⟨_, rfl, .updates (updates_delinStep s)⟩
  | tagStep => exact ⟨_, rfl, .updates (updates_tagStep s)⟩
  | hardReset => exact ⟨_, rfl, .hardReset s⟩

theorem exec_effect {i : Instr} {s t : State} (h : exec i s = .next t) : Effect i s t := by
  obtain ⟨u, hu, heffect⟩ := exec_next_effect i s
  cases hu.symm.trans h
  exact heffect

/-- A property every instruction keeps, and which does not look at the schedule, is kept by every step. -/
theorem step_keeps {P : State → Prop} (hDrop : ∀ s, P s → P (dropPending s)) (hCount : ∀ s, P s → P (countChoice s))
    (hExec : ∀ {i s t}, exec i s = .next t → P s → P t) {s t : State} (h : step s = .next t) (hs : P s) : P t := by
  cases hp : s.pending with
  | nil =>
    cases hc : freeChoice s with
    | some i => exact hExec ((step_of_freeChoice_some hp hc).symm.trans h) (hCount s hs)
    | none =>
      cases (step_of_freeChoice_none hp hc).symm.trans h
      exact hCount s hs
  | cons m rest =>
    rw [step_pending s m rest hp] at h
    rcases runEntry_cases m (dropPending s) with ⟨e, -, he⟩ | ⟨-, he⟩ | ⟨-, he⟩ <;> rw [he] at h
    · rcases runRlfEntry_cases e (dropPending s) with ⟨i, -, hi⟩ | ⟨err, -, herr⟩
      · exact hExec (hi.symm.trans h) (hDrop s hs)
      · exact absurd (herr.symm.trans h) (stopFor_ne_next err t)
    · cases h
      exact hDrop s hs
    · exact absurd h (stopFor_ne_next _ t)

end Sys2Proof.Machine
end

section
/-! The invariants of 10_state.md R64: what each guarded update, TX_ACCEPT, the STATUS write and the resets do to them, and the step. -/

namespace Sys2Proof.Machine

/-! ### Words whose bits outside a mask are 0 -/

/-- The bits of `x` outside the mask `m` are 0 exactly when `m` holds every bit of `x`. -/
theorem and_not_eq_zero_iff (x m : Word) : x &&& ~~~m = 0x00000000#32 ↔ ∀ i, x.getLsbD i = true → m.getLsbD i = true := by
  constructor
  · intro h i hx
    have hi : i < 32 := BitVec.lt_of_getLsbD hx
    have hbit := congrArg (BitVec.getLsbD · i) h
    simpa [hx, hi] using hbit
  · intro h
    refine BitVec.eq_of_getLsbD_eq fun i hi => ?_
    cases hx : x.getLsbD i
    · simp [hx]
    · simp [hx, h i hx]

theorem and_not_eq_zero_of_and {x m : Word} (y : Word) (h : x &&& ~~~m = 0x00000000#32) : x &&& y &&& ~~~m = 0x00000000#32 := by
  rw [and_not_eq_zero_iff] at h ⊢
  intro i hi
  rw [BitVec.getLsbD_and, Bool.and_eq_true] at hi
  exact h i hi.1

theorem and_and_not_self (x m : Word) : x &&& m &&& ~~~m = 0x00000000#32 := by
  rw [and_not_eq_zero_iff]
  intro i hi
  rw [BitVec.getLsbD_and, Bool.and_eq_true] at hi
  exact hi.2

theorem eventBit_and_not_stickyMask (e : Event) : eventBit e &&& ~~~stickyMask = 0x00000000#32 := by
  cases e <;> decide

theorem ctrlWord_reserved (eof chk tag rxf : Bool) : ctrlWord eof chk tag rxf &&& ~~~0x0000000F#32 = 0x00000000#32 := by
  revert eof chk tag rxf
  decide

theorem ctrlWord_getLsbD_one (eof chk tag rxf : Bool) : (ctrlWord eof chk tag rxf).getLsbD 1 = tag := by
  revert eof chk tag rxf
  decide

/-! ### The resets -/

theorem inv_hardReset {s : State} (h : s.cfg.Valid) : Inv (hardReset s) :=
  ⟨h, ⟨by simp, by simp⟩, ⟨by simp, by simp, by simp, by simp⟩, ⟨by simp [Slot.empty], by simp, by simp [Slot.empty]⟩,
    ⟨by simp, by simp⟩, by simp, ⟨by simp, by simp, by simp⟩, by simp [EndingClosesIntake]⟩

theorem inv_blkReset {s : State} (h : s.cfg.Valid) : Inv (blkReset s) := inv_hardReset h

theorem params_valid : Config.params.Valid := by
  refine ⟨by decide, by decide, by decide, by decide, by decide, ?_⟩
  show swResetAllowed Config.swResetOpcode = true
  unfold Config.swResetOpcode
  split
  · assumption
  · decide

/-! ### The guarded updates -/

section
variable {s : State}

theorem inv_raise (e : Event) (h : Inv s) : Inv (raise e s) := by
  obtain ⟨hcfg, htx, hdepths, hslot, hskip, htags, ⟨hctrl, hsticky, hie⟩, hending⟩ := h
  refine ⟨hcfg, htx, hdepths, hslot, hskip, htags, ⟨hctrl, ?_, hie⟩, hending⟩
  rw [raise_sticky, BitVec.and_or_distrib_right, hsticky, eventBit_and_not_stickyMask, BitVec.or_self]

theorem inv_clearSticky (v : Word) (h : Inv s) : Inv (clearSticky v s) := by
  obtain ⟨hcfg, htx, hdepths, hslot, hskip, htags, ⟨hctrl, hsticky, hie⟩, hending⟩ := h
  exact ⟨hcfg, htx, hdepths, hslot, hskip, htags, ⟨hctrl, and_not_eq_zero_of_and _ hsticky, hie⟩, hending⟩

theorem inv_setCtrl {eof chk tag rxf : Bool} (hopen : tag = true → s.ending = false) (h : Inv s) :
    Inv (setCtrl (ctrlWord eof chk tag rxf) s) := by
  obtain ⟨hcfg, htx, hdepths, hslot, hskip, htags, ⟨-, hsticky, hie⟩, -⟩ := h
  refine ⟨hcfg, htx, hdepths, hslot, hskip, htags, ⟨ctrlWord_reserved _ _ _ _, hsticky, hie⟩, fun he => ?_⟩
  rw [setCtrl_ending] at he
  rw [tagEn, setCtrl_ctrl, ctrlWord_getLsbD_one]
  cases tag
  · rfl
  · simp [hopen rfl] at he

theorem inv_setIe (v : Word) (h : Inv s) : Inv (setIe (v &&& ieMask) s) := by
  obtain ⟨hcfg, htx, hdepths, hslot, hskip, htags, ⟨hctrl, hsticky, -⟩, hending⟩ := h
  exact ⟨hcfg, htx, hdepths, hslot, hskip, htags, ⟨hctrl, hsticky, and_and_not_self v ieMask⟩, hending⟩

theorem inv_setTxbuf {p : List Byte} (hp : p.length ≤ s.cfg.txpDepth) (h : Inv s) : Inv (setTxbuf p s) := by
  obtain ⟨hcfg, htx, ⟨-, hrxq, hwin, htagq⟩, hrest⟩ := h
  exact ⟨hcfg, htx, ⟨hp, hrxq, hwin, htagq⟩, hrest⟩

theorem frameEncode_length (op : Byte) (p : List Byte) : (frameEncode op p).length = p.length + frameOverhead := by
  simp [frameEncode, checkedBytes_length, frameOverhead]

theorem inv_latchFrame (h : Inv s) : Inv (latchFrame s) := by
  obtain ⟨hcfg, -, hrest⟩ := h
  exact ⟨hcfg, ⟨by simp [frameEncode_length, frameOverhead], by simp⟩, hrest⟩

/-- TX_ACCEPT before the last byte leaves a byte of the frame to send; at the last byte it ends the transmission (10_state.md R56). -/
theorem inv_txAccept (h : Inv s) : Inv (txAccept s) := by
  rcases txAccept_cases s with ⟨-, e⟩ | ⟨-, hlast, e⟩ | ⟨hbusy, hmore, e⟩ <;> rw [e]
  · exact h
  · refine inv_raise .txDone ?_
    obtain ⟨hcfg, -, hrest⟩ := h
    exact ⟨hcfg, ⟨by simp [hlast], by simp [hlast]⟩, hrest⟩
  · obtain ⟨hcfg, ⟨hiff, -⟩, hrest⟩ := h
    have hidx := hiff.mp hbusy
    exact ⟨hcfg, ⟨iff_of_true hbusy (by simp; omega), by simp; omega⟩, hrest⟩

theorem inv_of_rxq {q : List Byte} (hq : q.length ≤ s.cfg.rxqDepth) (h : Inv s) : Inv { s with rxq := q } := by
  obtain ⟨hcfg, htx, ⟨htxbuf, -, hwin, htagq⟩, hrest⟩ := h
  exact ⟨hcfg, htx, ⟨htxbuf, hq, hwin, htagq⟩, hrest⟩

theorem inv_appendRxq (b : Byte) (hroom : s.rxq.length < s.cfg.rxqDepth) (h : Inv s) : Inv (appendRxq b s) :=
  inv_of_rxq (by rw [List.length_append]; exact hroom) h

/-- Taking bytes off RXQ keeps it within its depth. -/
theorem inv_drop_rxq (n : Nat) (h : Inv s) : Inv { s with rxq := s.rxq.drop n } := by
  have ⟨_, _, ⟨_, hrxq, _⟩, _⟩ := h
  exact inv_of_rxq (by rw [List.length_drop]; omega) h

theorem inv_of_slot {t : Slot} (ht : t.Consistent s.cfg.rxpDepth) (h : Inv s) : Inv { s with slot := t } := by
  obtain ⟨hcfg, htx, hdepths, -, hrest⟩ := h
  exact ⟨hcfg, htx, hdepths, ht, hrest⟩

theorem slot_empty_consistent (d : Nat) : Slot.empty.Consistent d := ⟨by simp [Slot.empty], fun _ => rfl, by simp [Slot.empty]⟩

/-- What `classify` accepts is a whole frame: 8 to MAX_FRAME bytes, with the checks of 42_rx_framer.md R256. -/
theorem accept_of_classify {m : Nat} {chk eof : Bool} {q f : List Byte} {c : Byte} {k o : Bool}
    (h : classify m chk eof q = .accept f c k o) :
    frameOverhead ≤ f.length ∧ f.length ≤ m ∧ k = candidateChkOk f ∧ c = candidateCalc f := by
  rcases classify_cases m chk eof q with e | ⟨-, e | e⟩ | ⟨-, l, -, hmin, hmax, hall, e⟩
  · cases e.symm.trans h
  · cases e.symm.trans h
  · cases e.symm.trans h
  · rcases judge_cases chk eof (q.take l) with ⟨-, ej⟩ | ⟨-, -, ej⟩
    · cases ej.symm.trans (e.symm.trans h)
    · cases ej.symm.trans (e.symm.trans h)
      rw [List.length_take]
      exact ⟨by omega, by omega, rfl, rfl⟩

/-- The slot filled from an accepted frame meets the slot's relations. -/
theorem slotOf_consistent {f : List Byte} {k o : Bool} {d : Nat} (hd : d ≤ maxParams) (hmin : frameOverhead ≤ f.length)
    (hmax : f.length ≤ d + frameOverhead) (hk : k = candidateChkOk f) : (slotOf f (candidateCalc f) k o).Consistent d := by
  have hplen : (slotOf f (candidateCalc f) k o).pbuf.length = f.length - 8 := by
    simp only [slotOf, slice_length]
    omega
  unfold maxParams at hd
  unfold frameOverhead at hmin hmax
  refine ⟨by omega, fun h => absurd h (by simp [slotOf]), fun _ => ⟨?_, hk, by simp [slotOf]⟩⟩
  rw [hplen]
  simp only [slotOf, BitVec.toNat_ofNat]
  omega

theorem inv_deliver {f : List Byte} {c : Byte} {k o : Bool} (hclass : rxClass s = .accept f c k o) (h : Inv s) :
    Inv (deliver f c k o s) := by
  obtain ⟨hmin, hmax, hk, rfl⟩ := accept_of_classify hclass
  have ⟨⟨_, ⟨_, hrxp⟩, _⟩, _⟩ := h
  obtain ⟨hcfg, htx, hdepths, -, hrest⟩ := inv_drop_rxq f.length h
  exact ⟨hcfg, htx, hdepths, slotOf_consistent hrxp hmin hmax hk, hrest⟩

/-- RX_RIDX stops at RX_PLEN, which a 16-bit index can hold. -/
theorem inv_advanceRidx (hvalid : s.slot.valid = true) (hmore : s.slot.ridx.toNat < rxPlen s) (h : Inv s) :
    Inv (advanceRidx s) := by
  have ⟨⟨_, ⟨_, hrxp⟩, _⟩, _, _, ⟨hbuf, _, hfull⟩, _⟩ := h
  obtain ⟨hlen, hchk, -⟩ := hfull hvalid
  refine inv_of_slot ⟨hbuf, fun hv => absurd (hvalid.symm.trans hv) (by decide), fun _ => ⟨hlen, hchk, ?_⟩⟩ h
  unfold rxPlen at hmore
  simp only [BitVec.toNat_add, BitVec.toNat_ofNat]
  omega

/-- The tag parser's window and SKIP replaced. -/
theorem inv_of_win_skip {w : List Byte} {n : Nat} (hw : w.length ≤ s.cfg.tagwDepth) (hn : n ≤ 3) (hempty : 0 < n → w = [])
    (h : Inv s) : Inv { s with win := w, skip := n } := by
  obtain ⟨hcfg, htx, ⟨htxbuf, hrxq, -, htagq⟩, hslot, -, hrest⟩ := h
  exact ⟨hcfg, htx, ⟨htxbuf, hrxq, hw, htagq⟩, hslot, ⟨hn, hempty⟩, hrest⟩

theorem inv_takeTrailerByte (h : Inv s) : Inv (takeTrailerByte s) := by
  have ⟨_, _, ⟨_, _, hwin, _⟩, _, ⟨hskip, hempty⟩, _⟩ := h
  exact inv_of_win_skip hwin (by omega) (fun hn => hempty (by omega)) h

theorem inv_appendWin (b : Byte) (hskip : s.skip = 0) (hroom : s.win.length < s.cfg.tagwDepth) (h : Inv s) :
    Inv (appendWin b s) :=
  inv_of_win_skip (by rw [List.length_append]; exact hroom) (by omega) (by omega) h

theorem inv_dropWin (h : Inv s) : Inv (dropWin s) := by
  have ⟨_, _, ⟨_, _, hwin, _⟩, _, ⟨hskip, hempty⟩, _⟩ := h
  exact inv_of_win_skip (by rw [List.length_drop]; omega) hskip (fun hn => by rw [hempty hn, List.drop_nil]) h

theorem inv_of_tagq {q : List TagRecord} (hq : q.length ≤ s.cfg.tagqDepth) (htags : ∀ r ∈ q, r.Consistent) (h : Inv s) :
    Inv { s with tagq := q } := by
  obtain ⟨hcfg, htx, ⟨htxbuf, hrxq, hwin, -⟩, hslot, hskip, -, hrest⟩ := h
  exact ⟨hcfg, htx, ⟨htxbuf, hrxq, hwin, hq⟩, hslot, hskip, htags, hrest⟩

theorem inv_dropRecord (h : Inv s) : Inv (dropRecord s) := by
  have ⟨_, _, ⟨_, _, _, htagq⟩, _, _, htags, _⟩ := h
  exact inv_of_tagq (by rw [List.length_drop]; omega) (fun r hr => htags r (List.mem_of_mem_drop hr)) h

/-- A record `tclass` finds holds what its PC word declares, and at most its trailer is missing from the window. -/
theorem record_of_tclass {w : List Byte} {e : Bool} {r : TagRecord} (h : tclass w e = .record r) :
    r.Consistent ∧ recordSpan r.epcLen ≤ w.length + 3 := by
  rcases tclass_cases w e with ⟨-, c⟩ | ⟨-, -, c⟩ | ⟨-, c⟩ | ⟨-, -, c⟩ | ⟨hneed, c⟩ <;> rw [c] at h <;> cases h
  unfold recordNeed at hneed
  refine ⟨⟨rfl, ?_⟩, ?_⟩
  · simp only [recordAt, slice_length]
    omega
  · simp only [recordAt, recordSpan]
    omega

/-- The record's span is skipped: what of it is not in the window is at most its trailer, and then the window is empty. -/
theorem inv_emitRecord {r : TagRecord} (hclass : tclass s.win s.ending = .record r) (hroom : s.tagq.length < s.cfg.tagqDepth)
    (h : Inv s) : Inv (emitRecord r s) := by
  have ⟨_, _, ⟨_, _, hwin, _⟩, _, _, htags, _⟩ := h
  obtain ⟨hr, hspan⟩ := record_of_tclass hclass
  have hqueued : ∀ x ∈ s.tagq ++ [r], x.Consistent := by
    intro x hx
    rcases List.mem_append.mp hx with hx | hx
    · exact htags x hx
    · rwa [List.mem_singleton.mp hx]
  have hskipped : Inv { s with
      win := s.win.drop (min s.win.length (recordSpan r.epcLen))
      skip := recordSpan r.epcLen - min s.win.length (recordSpan r.epcLen) } :=
    inv_of_win_skip (by rw [List.length_drop]; omega) (by omega) (fun _ => List.drop_eq_nil_of_le (by omega)) h
  obtain ⟨hcfg, htx, ⟨htxbuf, hrxq, hwin, -⟩, hslot, hskip, -, hrest⟩ := hskipped
  exact ⟨hcfg, htx, ⟨htxbuf, hrxq, hwin, by rw [emitRecord_tagq, List.length_append]; exact hroom⟩, hslot, hskip, hqueued, hrest⟩

theorem inv_endBurst (h : Inv s) : Inv (endBurst s) := by
  obtain ⟨hcfg, htx, hdepths, hslot, -, htags, hreserved, -⟩ := h
  exact ⟨hcfg, htx, hdepths, hslot, ⟨by simp, by simp⟩, htags, hreserved, by simp [EndingClosesIntake]⟩

theorem inv_beginEnding (h : Inv s) : Inv (beginEnding s) := by
  obtain ⟨hcfg, htx, hdepths, hslot, hskip, htags, ⟨hctrl, hsticky, hie⟩, -⟩ := h
  exact ⟨hcfg, htx, hdepths, hslot, hskip, htags, ⟨and_not_eq_zero_of_and _ hctrl, hsticky, hie⟩, fun _ => by simp [tagEn]⟩

theorem inv_tagFlush (h : Inv s) : Inv (tagFlush s) := by
  obtain ⟨hcfg, htx, ⟨htxbuf, hrxq, -, -⟩, hslot, -, -, hreserved, -⟩ := h
  exact ⟨hcfg, htx, ⟨htxbuf, hrxq, by simp, by simp⟩, hslot, ⟨by simp, by simp⟩, by simp, hreserved, by simp [EndingClosesIntake]⟩

end

theorem Update.inv {s t : State} (h : Update s t) (hs : Inv s) : Inv t := by
  cases h with
  | raise e => exact inv_raise e hs
  | setCtrl eof chk tag rxf _ hopen => exact inv_setCtrl hopen hs
  | setIe v => exact inv_setIe v hs
  | pushTxbuf b _ _ hroom =>
    have ⟨_, _, ⟨htxbuf, _⟩, _⟩ := hs
    exact inv_setTxbuf (by rw [List.length_append, List.length_singleton]; omega) hs
  | clearTxbuf => exact inv_setTxbuf (Nat.zero_le _) hs
  | latchFrame => exact inv_latchFrame hs
  | appendRxq b _ hroom => exact inv_appendRxq b hroom hs
  | dropRxq => exact inv_drop_rxq 1 hs
  | clearRxq => exact inv_of_rxq (Nat.zero_le _) hs
  | deliver f c k o _ _ hclass => exact inv_deliver hclass hs
  | emptySlot => exact inv_of_slot (slot_empty_consistent _) hs
  | advanceRidx _ hvalid hmore => exact inv_advanceRidx hvalid hmore hs
  | takeTrailerByte => exact inv_takeTrailerByte hs
  | appendWin b _ _ hskip hroom => exact inv_appendWin b hskip hroom hs
  | dropWin => exact inv_dropWin hs
  | emitRecord r _ hclass hroom => exact inv_emitRecord hclass hroom hs
  | endBurst => exact inv_endBurst hs
  | beginEnding => exact inv_beginEnding hs
  | dropRecord => exact inv_dropRecord hs
  | tagFlush => exact inv_tagFlush hs
  | busReturn | setTxOpcode | setExpOpcode | cntClr => exact hs

/-! ### Every instruction and every step -/

theorem exec_inv {i : Instr} {s t : State} (h : exec i s = .next t) (hs : Inv s) : Inv t := by
  have ⟨hcfg, _⟩ := hs
  cases exec_effect h with
  | txAccept => exact inv_txAccept hs
  | statusW1c v => exact inv_clearSticky v hs
  | hardReset => exact inv_hardReset hcfg
  | blkReset => exact inv_blkReset hcfg
  | cmdReset => exact inv_blkReset hcfg
  | updates hu => exact hu.keeps Update.inv hs

/-- Settles O56: the invariants do not look at the schedule, and every instruction keeps them. -/
theorem everyStepKeepsTheInvariants : Obligations.EveryStepKeepsTheInvariants := by
  intro s t hs h
  refine step_keeps (fun _ h => h) (fun u hu => ?_) exec_inv h hs
  rcases countChoice_cases u with ⟨-, e⟩ | ⟨-, e⟩ <;> rw [e] <;> exact hu

/-- Settles O57: the machine starts in a reset state with valid parameters. -/
theorem resetMeetsTheInvariants : Obligations.ResetMeetsTheInvariants := inv_hardReset (s := State.reset) params_valid

end Sys2Proof.Machine
end

section
/-! The sticky bits, TXWIRE, the parameters and the reset table: what single fields do under every instruction (10_state.md R31, R36, R54,
R63). -/

namespace Sys2Proof.Machine

open Sys2Proof.Statements

/-- Settles O5: the schedule layer of the scope family, field by field. -/
theorem noInstructionChangesParametersOrSchedule : Obligations.NoInstructionChangesParametersOrSchedule := by
  intro i s t h
  exact (schedule_eq_iff s t).mp (exec_schedule h)

/-! ### TXWIRE -/

theorem Update.txwire {s t : State} (h : Update s t) : t.txwire = s.txwire := by
  cases h <;> rfl

theorem Updates.txwire {s t : State} (h : Updates s t) : t.txwire = s.txwire :=
  h.keeps (P := fun u => u.txwire = s.txwire) (fun hu e => hu.txwire.trans e) rfl

theorem txAccept_txwire {s : State} (h : s.txBusy = true) : (txAccept s).txwire = s.txwire ++ [byteAt s.txFrame s.txIdx] := by
  rcases txAccept_cases s with ⟨hb, -⟩ | ⟨-, -, e⟩ | ⟨-, -, e⟩
  · simp [h] at hb
  · simp [e]
  · simp [e]

/-- Settles O29: only TX_ACCEPT emits, BLK_RESET keeps TXWIRE, and no guarded update touches it. -/
theorem txwireGrowsByTxAcceptAlone : Obligations.TxwireGrowsByTxAcceptAlone := by
  intro i s t h
  constructor
  · rintro rfl hbusy
    cases h
    exact ⟨_, txAccept_txwire hbusy⟩
  · intro htx hreset
    cases exec_effect h with
    | txAccept => exact absurd rfl htx
    | statusW1c v => exact clearSticky_txwire v s
    | hardReset => exact absurd rfl hreset
    | blkReset => exact blkReset_txwire s
    | cmdReset => exact blkReset_txwire s
    | updates hu => exact hu.txwire

/-! ### The sticky bits -/

section
variable {k : Nat}

theorem raise_keeps_sticky (e : Event) {s : State} (h : s.sticky.getLsbD k = true) : (raise e s).sticky.getLsbD k = true := by
  rw [raise_sticky, BitVec.getLsbD_or, h, Bool.true_or]

theorem Update.keeps_sticky {s t : State} (h : Update s t) (hs : s.sticky.getLsbD k = true) : t.sticky.getLsbD k = true := by
  cases h
  case raise e => exact raise_keeps_sticky e hs
  all_goals exact hs

theorem txAccept_keeps_sticky {s : State} (h : s.sticky.getLsbD k = true) : (txAccept s).sticky.getLsbD k = true := by
  rcases txAccept_cases s with ⟨-, e⟩ | ⟨-, -, e⟩ | ⟨-, -, e⟩ <;> rw [e]
  · exact h
  · exact raise_keeps_sticky .txDone h
  · exact h

theorem clearSticky_keeps_sticky {v : Word} {s : State} (hv : v.getLsbD k = false) (h : s.sticky.getLsbD k = true) :
    (clearSticky v s).sticky.getLsbD k = true := by
  have hk : k < 32 := BitVec.lt_of_getLsbD h
  rw [clearSticky_sticky, BitVec.getLsbD_and, BitVec.getLsbD_not, BitVec.getLsbD_and, h, hv]
  simp [hk]

end

/-- Settles O54: a STATUS write clears the bits written 1, the resets clear all, and nothing else clears a sticky bit. -/
theorem stickyBitsStayUntilClearedOrReset : Obligations.StickyBitsStayUntilClearedOrReset := by
  rintro i s t k ⟨hHard, hBlk, hCmd⟩ h hs hw1c
  cases exec_effect h with
  | txAccept => exact txAccept_keeps_sticky hs
  | statusW1c v => exact clearSticky_keeps_sticky (hw1c v rfl) hs
  | hardReset => exact absurd rfl hHard
  | blkReset => exact absurd rfl hBlk
  | cmdReset v _ hv => exact absurd hv (ne_true_of_eq_false (hCmd v rfl))
  | updates hu => exact hu.keeps (P := fun u => u.sticky.getLsbD k = true) Update.keeps_sticky hs

/-! ### The reset table -/

theorem statusValue_hardReset (s : State) : statusValue (hardReset s) = 0x00000000#32 := by
  simp [statusValue, liveBits, Slot.empty]

theorem irq_hardReset (s : State) : irq (hardReset s) = false := by
  simp [irq, statusValue_hardReset]

theorem resetValues_hardReset (s : State) : ResetValues (hardReset s) :=
  ⟨rfl, rfl, statusValue_hardReset s, rfl, rfl, rfl, rfl, rfl, rfl, rfl, rfl, rfl, rfl, rfl, rfl, rfl, rfl, rfl, rfl, irq_hardReset s⟩

/-- Settles O6: each reset writes the table of R63, and the machine starts in a reset state. -/
theorem resetsLeaveTheResetTable : Obligations.ResetsLeaveTheResetTable := by
  refine ⟨fun s => ⟨hardReset s, blkReset s, rfl, rfl, resetValues_hardReset s, rfl, rfl, resetValues_hardReset s, rfl, rfl⟩, ?_, rfl⟩
  exact resetValues_hardReset State.reset

end Sys2Proof.Machine
end

section
/-! STATUS, the interrupt line and the registers read as numbers (10_state.md R35 to R54). -/

namespace Sys2Proof.Machine

/-! ### Bits -/

theorem word_ne_zero_iff (x : Word) : x ≠ 0x00000000#32 ↔ ∃ i, x.getLsbD i = true := by
  constructor
  · intro h
    by_contra hnone
    simp only [not_exists, Bool.not_eq_true] at hnone
    exact h (BitVec.eq_of_getLsbD_eq fun i _ => by simp [hnone i])
  · rintro ⟨i, hi⟩ rfl
    simp at hi

theorem stickyMask_getLsbD (i : Nat) : stickyMask.getLsbD i = true ↔ 8 ≤ i ∧ i ≤ 18 := by
  by_cases hi : i < 32
  · revert i
    decide
  · rw [BitVec.getLsbD_of_ge _ _ (by omega)]
    exact iff_of_false (by decide) (by omega)

theorem ieMask_getLsbD (i : Nat) : ieMask.getLsbD i = true ↔ i = 1 ∨ i = 2 ∨ (8 ≤ i ∧ i ≤ 18) := by
  by_cases hi : i < 32
  · revert i
    decide
  · rw [BitVec.getLsbD_of_ge _ _ (by omega)]
    exact iff_of_false (by decide) (by omega)

/-- STATUS bits 3:0, and nothing above them (10_state.md R35). -/
theorem liveBits_getLsbD (s : State) (i : Nat) :
    (liveBits s).getLsbD i =
      if i = 0 then s.txBusy else if i = 1 then s.slot.valid else if i = 2 then !s.tagq.isEmpty else if i = 3 then s.ending
      else false := by
  simp only [liveBits, BitVec.getLsbD_append, BitVec.getLsbD_ofBool]
  match i with
  | 0 | 1 | 2 | 3 => simp
  | n + 4 => simp

theorem liveBits_getLsbD_of_le (s : State) {i : Nat} (h : 4 ≤ i) : (liveBits s).getLsbD i = false := by
  rw [liveBits_getLsbD, if_neg (by omega), if_neg (by omega), if_neg (by omega), if_neg (by omega)]

/-! ### STATUS and irq -/

theorem statusValue_getLsbD (s : State) (i : Nat) :
    (statusValue s).getLsbD i = (s.sticky.getLsbD i || (liveBits s).getLsbD i) :=
  BitVec.getLsbD_or

/-- Settles O9: outside 18:8 the sticky word is 0, so STATUS shows the live bits there; from bit 4 on those are 0. -/
theorem statusReadsLiveAndStickyBits : Obligations.StatusReadsLiveAndStickyBits := by
  intro s hreserved
  have hlive : ∀ i, ¬(8 ≤ i ∧ i ≤ 18) → (statusValue s).getLsbD i = (liveBits s).getLsbD i := by
    intro i hi
    have hzero : s.sticky.getLsbD i = false := Bool.eq_false_of_not_eq_true fun h =>
      hi ((stickyMask_getLsbD i).mp ((and_not_eq_zero_iff s.sticky stickyMask).mp hreserved i h))
    rw [statusValue_getLsbD, hzero, Bool.false_or]
  refine ⟨statusValue s, rfl, ?_, ?_, ?_, ?_, fun i h8 _ => ?_, fun i hi => ?_⟩
  · exact (hlive 0 (by omega)).trans (liveBits_getLsbD s 0)
  · exact (hlive 1 (by omega)).trans (liveBits_getLsbD s 1)
  · rw [hlive 2 (by omega), liveBits_getLsbD]
    simp
  · exact (hlive 3 (by omega)).trans (liveBits_getLsbD s 3)
  · rw [statusValue_getLsbD, liveBits_getLsbD_of_le s (by omega), Bool.or_false]
  · rw [hlive i (by omega), liveBits_getLsbD_of_le s (by omega)]

/-- Settles O53: the line is the OR over the bits IE implements. -/
theorem irqIsTheOrOfEnabledStatusBits : Obligations.IrqIsTheOrOfEnabledStatusBits := by
  intro s
  have hirq : irq s = true ↔ statusValue s &&& s.ie &&& ieMask ≠ 0x00000000#32 := bne_iff_ne
  rw [hirq, word_ne_zero_iff]
  refine exists_congr fun i => ?_
  rw [BitVec.getLsbD_and, BitVec.getLsbD_and, Bool.and_eq_true, Bool.and_eq_true, ieMask_getLsbD]
  exact and_comm

/-! ### Packed registers -/

/-- A packed register as a number: the upper field weighs `2 ^ m` of the lower one. -/
theorem toNat_append_eq {n m : Nat} (x : BitVec n) (y : BitVec m) : (x ++ y).toNat = x.toNat * 2 ^ m + y.toNat := by
  rw [BitVec.toNat_append, ← Nat.shiftLeft_add_eq_or_of_lt y.isLt, Nat.shiftLeft_eq]

theorem txPlenValue_toNat {s : State} (h : Inv s) : (txPlenValue s).toNat = s.txbuf.length := by
  obtain ⟨⟨⟨-, htxp⟩, -⟩, -, ⟨htxbuf, -⟩, -⟩ := h
  simp only [txPlenValue, toNat_append_eq, BitVec.toNat_ofNat]
  omega

theorem levelsValue_toNat {s : State} (h : Inv s) :
    (levelsValue s).toNat = s.rxq.length + 65536 * s.win.length + 16777216 * s.tagq.length := by
  obtain ⟨⟨-, -, ⟨-, hrxqD⟩, ⟨-, hwinD⟩, ⟨-, htagqD⟩, -⟩, -, ⟨-, hrxq, hwin, htagq⟩, -⟩ := h
  simp only [levelsValue, toNat_append_eq, BitVec.toNat_ofNat]
  omega

theorem cfg0Value_toNat {s : State} (h : s.cfg.Valid) : (cfg0Value s).toNat = s.cfg.txpDepth + 65536 * s.cfg.rxpDepth := by
  obtain ⟨⟨-, htxp⟩, ⟨-, hrxp⟩, -⟩ := h
  simp only [cfg0Value, toNat_append_eq, BitVec.toNat_ofNat]
  omega

theorem cfg1Value_toNat {s : State} (h : s.cfg.Valid) :
    (cfg1Value s).toNat = s.cfg.rxqDepth + 65536 * s.cfg.tagwDepth + 16777216 * s.cfg.tagqDepth := by
  obtain ⟨-, -, ⟨-, hrxq⟩, ⟨-, hwin⟩, ⟨-, htagq⟩, -⟩ := h
  simp only [cfg1Value, toNat_append_eq, BitVec.toNat_ofNat]
  omega

/-- Settles O10: every level and depth fits its field. -/
theorem levelAndParameterReads : Obligations.LevelAndParameterReads := by
  intro s h
  have ⟨hcfg, _⟩ := h
  exact ⟨txPlenValue s, levelsValue s, cfg0Value s, cfg1Value s, rfl, txPlenValue_toNat h, rfl, levelsValue_toNat h, rfl,
    cfg0Value_toNat hcfg, rfl, cfg1Value_toNat hcfg⟩

/-! ### The delivered frame -/

theorem rxHdrValue_toNat {s : State} (h : s.slot.valid = true) :
    (rxHdrValue s).toNat = s.slot.opcode.toNat + 256 * s.slot.chk.toNat + 65536 * s.slot.len.toNat := by
  rw [rxHdrValue, if_pos h, toNat_append_eq, toNat_append_eq]
  omega

theorem rxInfoValue_toNat {s : State} (hs : Inv s) (h : s.slot.valid = true) :
    (rxInfoValue s).toNat = s.slot.pbuf.length + 65536 * s.slot.computed.toNat + 16777216 * s.slot.chkOk.toNat +
      33554432 * s.slot.eofOk.toNat + 67108864 * (s.slot.opcode == s.expOpcode).toNat := by
  obtain ⟨⟨-, ⟨-, hrxp⟩, -⟩, -, -, ⟨hbuf, -⟩, -⟩ := hs
  rw [rxInfoValue, if_pos h]
  simp only [ackMatch, h, rxPlen, Bool.true_and, toNat_append_eq, BitVec.toNat_ofBool, BitVec.toNat_ofNat]
  omega

/-- Settles O11: RX_HDR and RX_INFO pack the slot's fields, or are 0 while it is empty. -/
theorem rxHeaderAndInfoReads : Obligations.RxHeaderAndInfoReads := by
  intro s hs
  refine ⟨rxHdrValue s, rxInfoValue s, rfl, rfl, fun h => ⟨rxHdrValue_toNat h, rxInfoValue_toNat hs h⟩, fun h => ?_⟩
  exact ⟨if_neg (ne_true_of_eq_false h), if_neg (ne_true_of_eq_false h)⟩

/-! ### The head record -/

/-- A consistent record's EPC byte `j`, 0 past the EPC's end (10_state.md R51). -/
theorem epcByte_eq {r : TagRecord} (h : r.Consistent) (j : Nat) : epcByte r j = r.epc.getD j 0x00#8 := by
  obtain ⟨-, hlen⟩ := h
  unfold epcByte byteAt
  split
  · rfl
  · exact (List.getD_eq_default _ _ (by omega)).symm

section
variable {s : State} {r : TagRecord} {rest : List TagRecord}

theorem tagHdrValue_toNat (hq : s.tagq = r :: rest) (hr : r.Consistent) :
    (tagHdrValue s).toNat = r.epcLen + 256 * r.ant.toNat + 65536 * r.pc.toNat := by
  obtain ⟨hlen, -⟩ := hr
  have hpc := r.pc.isLt
  rw [epcLength_eq] at hlen
  simp only [tagHdrValue, hq, toNat_append_eq, BitVec.toNat_ofNat]
  omega

theorem tagRssiValue_toInt (hq : s.tagq = r :: rest) : (tagRssiValue s).toInt = r.rssi.toInt := by
  simp only [tagRssiValue, hq]
  exact BitVec.toInt_signExtend_of_le (by decide)

theorem tagEpcValue_toNat (k : BitVec 4) (hq : s.tagq = r :: rest) (hr : r.Consistent) :
    (tagEpcValue k s).toNat =
      16777216 * (r.epc.getD (4 * k.toNat) 0#8).toNat + 65536 * (r.epc.getD (4 * k.toNat + 1) 0#8).toNat +
        256 * (r.epc.getD (4 * k.toNat + 2) 0#8).toNat + (r.epc.getD (4 * k.toNat + 3) 0#8).toNat := by
  simp only [tagEpcValue, hq, epcByte_eq hr, toNat_append_eq]
  omega

end

/-- Settles O12: the three registers pack the head record's fields, or are 0 while TAGQ is empty. -/
theorem tagRegisterReads : Obligations.TagRegisterReads := by
  intro s k hs
  obtain ⟨-, -, -, -, -, htags, -⟩ := hs
  refine ⟨tagHdrValue s, tagRssiValue s, tagEpcValue k s, rfl, rfl, rfl, fun r rest hq => ?_, fun hq => ?_⟩
  · have hr : r.Consistent := htags r (by rw [hq]; exact List.mem_cons_self)
    exact ⟨tagHdrValue_toNat hq hr, tagRssiValue_toInt hq, tagEpcValue_toNat k hq hr⟩
  · simp [tagHdrValue, tagRssiValue, tagEpcValue, hq]

end Sys2Proof.Machine
end

section
/-! The memory family (20_memory.md): a host access narrower than 32 bits (R105) and the frame in flight (R113). -/

namespace Sys2Proof.Machine

open Sys2Proof.Statements

/-! ### Narrow host accesses -/

theorem decode_busWrite (sw : Byte) (body : List Byte) : decode sw (0x57#8 :: body) = decodeBusWrite body := rfl

theorem decode_busRead (sw : Byte) (body : List Byte) : decode sw (0x52#8 :: body) = decodeBusRead body := rfl

section
variable {size : Byte}

theorem ne_fullAccess_of_narrow (h : size.toNat < 4) : size ≠ fullAccess := by
  rintro rfl
  exact absurd h (by decide)

theorem sizeError_of_narrow (h : size.toNat < 4) : sizeError size = .narrowAccess :=
  if_pos (decide_eq_true h)

theorem decodeBusWrite_narrow (off : Byte) (data : List Byte) (h : size.toNat < 4) :
    decodeBusWrite (size :: off :: data) = .error .narrowAccess := by
  simp [decodeBusWrite, ne_fullAccess_of_narrow h, sizeError_of_narrow h]

theorem decodeBusRead_narrow (off : Byte) (h : size.toNat < 4) : decodeBusRead [size, off] = .error .narrowAccess := by
  simp [decodeBusRead, ne_fullAccess_of_narrow h, sizeError_of_narrow h]

end

/-- An entry at RLF's own interface that decodes to nothing stops the step, whatever the rest of the state is (log 17). -/
theorem step_of_decode_error {s : State} {k : Byte} {body : List Byte} {rest : List (List Byte)} {e : DecodeError}
    (hp : s.pending = (k :: body) :: rest) (hw : k ≠ hostWriteKind) (hr : k ≠ hostReadKind)
    (hd : decode s.cfg.swResetOpcode (k :: body) = .error e) : step s = stopFor e := by
  rw [step_pending s _ rest hp]
  simp [runEntry, route_own _ k body hw hr, runRlfEntry, hd]

/-- Settles O2: the size byte of either bus form is tested before anything else of the access, so a narrow one does not decode. -/
theorem narrowHostAccessIsRefused : Obligations.NarrowHostAccessIsRefused := by
  rintro s size off data rest hsize (hp | hp)
  · exact step_of_decode_error hp (by decide) (by decide) ((decode_busWrite _ _).trans (decodeBusWrite_narrow off data hsize))
  · exact step_of_decode_error hp (by decide) (by decide) ((decode_busRead _ _).trans (decodeBusRead_narrow off hsize))

/-! ### The frame in flight -/

/-- `t` is at the same point of the same transmission as `s` (20_memory.md R113). -/
def SameTransmission (s t : State) : Prop :=
  t.txFrame = s.txFrame ∧ t.txIdx = s.txIdx ∧ t.txBusy = true ∧ t.txwire = s.txwire ∧ t.txbuf = s.txbuf ∧ t.txOpcode = s.txOpcode

theorem SameTransmission.refl {s : State} (h : s.txBusy = true) : SameTransmission s s := ⟨rfl, rfl, h, rfl, rfl, rfl⟩

/-- While TX_BUSY is 1 the updates of TX_OPCODE, TXBUF and TX_FRAME are refused (41_tx_framer.md R220 to R223); the others touch no
element of the transmission. -/
theorem SameTransmission.update {s t u : State} (h : SameTransmission s t) (hu : Update t u) : SameTransmission s u := by
  have ⟨_, _, hbusy, _⟩ := h
  cases hu
  case setTxOpcode hIdle | pushTxbuf hIdle _ | clearTxbuf hIdle | latchFrame hIdle =>
    exact absurd hbusy (ne_true_of_eq_false hIdle)
  all_goals exact h

theorem SameTransmission.updates {s t u : State} (h : SameTransmission s t) (hu : Updates t u) : SameTransmission s u :=
  hu.keeps (P := SameTransmission s) (fun hupdate hs => hs.update hupdate) h

theorem txAccept_txFrame (s : State) : (txAccept s).txFrame = s.txFrame := by
  rcases txAccept_cases s with ⟨-, e⟩ | ⟨-, -, e⟩ | ⟨-, -, e⟩ <;> simp [e]

/-- An instruction that is neither TX_ACCEPT nor a reset leaves a transmission where it is. -/
theorem exec_sameTransmission {i : Instr} {s t : State} (hreset : NoReset i) (hbusy : s.txBusy = true) (htx : i ≠ .txAccept)
    (h : exec i s = .next t) : SameTransmission s t := by
  obtain ⟨hHard, hBlk, hCmd⟩ := hreset
  cases exec_effect h with
  | txAccept => exact absurd rfl htx
  | statusW1c v => exact ⟨rfl, rfl, hbusy, rfl, rfl, rfl⟩
  | hardReset => exact absurd rfl hHard
  | blkReset => exact absurd rfl hBlk
  | cmdReset v _ hv => exact absurd hv (ne_true_of_eq_false (hCmd v rfl))
  | updates hu => exact (SameTransmission.refl hbusy).updates hu

/-- Settles O28: TX_ACCEPT moves the transmission on without touching its frame, and any other instruction leaves it where it is. -/
theorem nothingChangesTheFrameInFlight : Obligations.NothingChangesTheFrameInFlight := by
  intro i s t hreset hbusy h
  by_cases htx : i = .txAccept
  · subst htx
    cases h
    exact ⟨txAccept_txFrame s, fun hne => absurd rfl hne⟩
  · obtain ⟨hframe, hrest⟩ := exec_sameTransmission hreset hbusy htx h
    exact ⟨hframe, fun _ => hrest⟩

end Sys2Proof.Machine
end

section
/-! The encoding family (30_encoding.md): the checksum and the PC word, the frame layout of R130, and the frame read back. -/

namespace Sys2Proof.Machine

/-! ### The checksum and the PC word -/

/-- Settles O38: the last byte of the longer XOR is the CHECKSUM, and `a ^^^ b` is 0 for equal bytes only. -/
theorem checksumResidueIsZeroOnMatch : Obligations.ChecksumResidueIsZeroOnMatch := by
  intro f hf
  have hindex : f.length - 5 < (f.drop 2).length := by
    rw [List.length_drop]
    omega
  have hbyte : (f.drop 2)[f.length - 5]'hindex = f.getD (f.length - 3) 0#8 := by
    rw [List.getElem_drop, List.getD_eq_getElem _ _ (by omega)]
    congr 1
    omega
  have hthrough : (f.drop 2).take (f.length - 4) = (f.drop 2).take (f.length - 5) ++ [f.getD (f.length - 3) 0#8] := by
    rw [← hbyte, ← List.take_succ_eq_append_getElem hindex]
    congr 1
    omega
  rw [hthrough, xor8_snoc, BitVec.xor_eq_zero_iff]
  exact eq_comm

/-- Clearing and overwriting bits 10:0 of a PC word leaves bits 15:11. -/
theorem highBits_replaceLow (pc low : Half) : ((pc &&& 0xF800#16) ||| (low &&& 0x07FF#16)) >>> 11 = pc >>> 11 := by
  apply BitVec.eq_of_getLsbD_eq
  intro i hi
  simp only [BitVec.getLsbD_ushiftRight, BitVec.getLsbD_or, BitVec.getLsbD_and]
  by_cases h : i < 5
  · interval_cases i <;> simp
  · simp [BitVec.getLsbD_of_ge _ (11 + i) (show 16 ≤ 11 + i by omega)]

/-- Settles O47: EPC_LEN is a function of `pc >>> 11`, a number below 32. -/
theorem epcLengthReadsTheTopFiveBits : Obligations.EpcLengthReadsTheTopFiveBits := by
  intro pc low
  have hpc := pc.isLt
  have hlow : epcLength ((pc &&& 0xF800#16) ||| (low &&& 0x07FF#16)) = epcLength pc := by
    simp only [epcLength, highBits_replaceLow]
  rw [hlow, epcLength_eq]
  exact ⟨by omega, by omega, by omega, rfl⟩

/-! ### The frame layout (30_encoding.md R130) -/

theorem slice_append_middle (a m c : List Byte) : slice (a ++ (m ++ c)) a.length (a.length + m.length) = m := by
  simp [slice]

section
variable (op : Byte) (p : List Byte)

theorem frameEncode_eq_params :
    frameEncode op p =
      [sof0, sof1, hi8 (lengthField p), lo8 (lengthField p), op] ++ (p ++ [checksum (checkedBytes op p), eof0, eof1]) := rfl

theorem frameEncode_params : slice (frameEncode op p) 5 (5 + p.length) = p := by
  rw [frameEncode_eq_params]
  exact slice_append_middle [_, _, _, _, _] p _

theorem frameEncode_checked : slice (frameEncode op p) 2 (5 + p.length) = checkedBytes op p := by
  have h := slice_append_middle [sof0, sof1] (checkedBytes op p) [checksum (checkedBytes op p), eof0, eof1]
  rwa [checkedBytes_length, show [sof0, sof1].length + (p.length + 3) = 5 + p.length by simp; omega] at h

/-- The bytes behind PARAMS: CHECKSUM, then EOF. -/
theorem byteAt_frameEncode_trailer (i : Nat) :
    byteAt (frameEncode op p) (5 + p.length + i) = byteAt [checksum (checkedBytes op p), eof0, eof1] i := by
  have hi : 5 + p.length + i = 5 + (p.length + i) := by omega
  rw [frameEncode_eq_params, byteAt_append_right _ (by simp; omega), byteAt_append_right _ (by simp; omega)]
  congr 1
  simp; omega

/-- A frame is read back whole (30_encoding.md R130 to R133). -/
theorem parseFrame_frameEncode (h : p.length ≤ maxParams) : parseFrame (frameEncode op p) = .ok (op, p) := by
  have hlen : (frameEncode op p).length = p.length + 8 := frameEncode_length op p
  have hLength : (be16 (byteAt (frameEncode op p) 2) (byteAt (frameEncode op p) 3)).toNat = (frameEncode op p).length := by
    rw [frameEncode_length, ← lengthField_toNat h]
    exact congrArg BitVec.toNat (be16_hi8_lo8 (lengthField p))
  have hchk : byteAt (frameEncode op p) ((frameEncode op p).length - 3) =
      checksum (slice (frameEncode op p) 2 ((frameEncode op p).length - 3)) := by
    rw [hlen, show p.length + 8 - 3 = 5 + p.length by omega, frameEncode_checked]
    exact byteAt_frameEncode_trailer op p 0
  have heof0 : byteAt (frameEncode op p) ((frameEncode op p).length - 2) = eof0 := by
    rw [hlen, show p.length + 8 - 2 = 5 + p.length + 1 by omega]
    exact byteAt_frameEncode_trailer op p 1
  have heof1 : byteAt (frameEncode op p) ((frameEncode op p).length - 1) = eof1 := by
    rw [hlen, show p.length + 8 - 1 = 5 + p.length + 2 by omega]
    exact byteAt_frameEncode_trailer op p 2
  have hparams : slice (frameEncode op p) 5 ((frameEncode op p).length - 3) = p := by
    rw [hlen, show p.length + 8 - 3 = 5 + p.length by omega, frameEncode_params]
  have hlong : ¬ (frameEncode op p).length < frameOverhead := by
    rw [frameEncode_length]
    omega
  have hop : byteAt (frameEncode op p) 4 = op := rfl
  have hsof0 : byteAt (frameEncode op p) 0 = sof0 := rfl
  have hsof1 : byteAt (frameEncode op p) 1 = sof1 := rfl
  simp only [parseFrame, hlong, hsof0, hsof1, hLength, ← hchk, heof0, heof1, hparams, hop, ne_eq, not_true, or_self, if_false]

end

/-- Settles O37: the fields of R130 at their offsets. -/
theorem encodedFrameHasTheFrameLayout : Obligations.EncodedFrameHasTheFrameLayout := by
  intro op p hp
  refine ⟨_, rfl, frameEncode_length op p, rfl, rfl, ?_, rfl, ?_, ?_, ?_⟩
  · have hfield := congrArg BitVec.toNat (be16_hi8_lo8 (lengthField p))
    rw [be16_toNat, lengthField_toNat hp, frameOverhead] at hfield
    rw [Nat.mul_comm]
    exact hfield
  · simpa [slice] using frameEncode_params op p
  · have hchecked := frameEncode_checked op p
    rw [slice, show 5 + p.length - 2 = p.length + 3 by omega] at hchecked
    rw [hchecked]
    exact byteAt_frameEncode_trailer op p 0
  · rw [show 6 + p.length = p.length + 1 + 5 by omega]
    simp [frameEncode_eq_params, List.drop_append, eof0, eof1]

end Sys2Proof.Machine
end

section
/-! Decode of encode (30_encoding.md R145): each kind of entry read back, then every instruction. -/

namespace Sys2Proof.Machine

/-! ### Bus accesses -/

theorem decode_encodeWrite (sw off : Byte) (v : Word) : decode sw (encodeWrite off v) = .ok (decodeWrite off v) := by
  calc decode sw (encodeWrite off v)
      = .ok (decodeWrite off (wordOfBytes (v.extractLsb' 24 8) (v.extractLsb' 16 8) (v.extractLsb' 8 8) (v.extractLsb' 0 8))) := rfl
    _ = .ok (decodeWrite off v) := by rw [wordOfBytes_wordBytes]

theorem decode_encodeRead (sw off : Byte) : decode sw (encodeRead off) = .ok (decodeRead off) := rfl

theorem loneCommand_none {v : Word} (h : isLoneCommand v = false) : loneCommand v = none := by
  simp only [isLoneCommand, List.contains_eq_mem, decide_eq_false_iff_not, List.mem_cons, not_or] at h
  simp [loneCommand, h]

/-- A CMD word that is no lone command is a CMD write (log 16). -/
theorem decodeWrite_cmd {v : Word} (h : isLoneCommand v = false) : decodeWrite 0x0C#8 v = .cmdWrite v := by
  calc decodeWrite 0x0C#8 v = (loneCommand v).getD (.cmdWrite v) := rfl
    _ = .cmdWrite v := by rw [loneCommand_none h, Option.getD_none]

section
variable {off o : Byte} (ho : registerOffset off = o)
include ho

/-- An offset of no register to write (40_host_access.md R187). -/
theorem decodeWrite_noEffect (h : writeHasNoEffect o = true) (v : Word) : decodeWrite off v = .roOrUnmappedWrite o v := by
  have hne : ∀ r, writeHasNoEffect r = false → o ≠ r := fun r hr he => absurd h (by simp [he, hr])
  simp only [decodeWrite, ho, hne 0x00#8 rfl, hne 0x04#8 rfl, hne 0x08#8 rfl, hne 0x0C#8 rfl, hne 0x10#8 rfl, hne 0x14#8 rfl,
    hne 0x1C#8 rfl, if_false]

/-- An offset of no register to read (10_state.md R55). -/
theorem decodeRead_zero (h : readIsZero o = true) : decodeRead off = .unmappedOrWoRead o := by
  have hne : ∀ r, readIsZero r = false → o ≠ r := fun r hr he => absurd h (by simp [he, hr])
  simp only [decodeRead, ho, h, hne 0x00#8 rfl, hne 0x04#8 rfl, hne 0x08#8 rfl, hne 0x10#8 rfl, hne 0x18#8 rfl, hne 0x1C#8 rfl,
    hne 0x20#8 rfl, hne 0x24#8 rfl, hne 0x28#8 rfl, hne 0x2C#8 rfl, hne 0x30#8 rfl, hne 0x34#8 rfl, hne 0x38#8 rfl, hne 0x3C#8 rfl,
    hne 0x40#8 rfl, hne 0x44#8 rfl, hne 0x48#8 rfl, hne 0x4C#8 rfl, if_false, if_true]

end

/-- Sixteen registers, so each is looked up (10_state.md R51). -/
theorem decodeRead_tagEpc : ∀ k : BitVec 4, decodeRead (tagEpcOffset k) = .tagEpcRead k := by decide

/-! ### Frames -/

theorem decode_encodeRequest (sw op : Byte) {p : List Byte} (h : paramsFit p = true) :
    decode sw (encodeRequest op p) = decodeRequest sw op p := by
  change decodeRequestFrame sw (frameEncode op p) = _
  rw [decodeRequestFrame, parseFrame_frameEncode op p (of_decide_eq_true h)]

theorem decode_encodeResponse (sw op : Byte) {p : List Byte} (h : paramsFit p = true) :
    decode sw (encodeResponse op p) = decodeResponse sw (ackOpcode op) p := by
  change decodeResponseFrame sw (frameEncode (ackOpcode op) p) = _
  rw [decodeResponseFrame, parseFrame_frameEncode _ p (of_decide_eq_true h)]

section
variable {sw : Byte} (h : swResetAllowed sw = true)
include h

/-- SW_RESET_OPCODE is none of the documented requests (00_scope.md R8), so neither is its ack one of theirs. -/
theorem swReset_ne_documented : ∀ op ∈ documentedRequests, sw ≠ op := by
  rintro op hop rfl
  simp [swResetAllowed, hop] at h

theorem decodeRequest_swReset : decodeRequest sw sw [] = .ok .softwareReset := by
  have hne := swReset_ne_documented h
  simp only [documentedRequests, List.forall_mem_cons] at hne
  simp [decodeRequest, hne]

theorem decodeResponse_swReset (p : List Byte) : decodeResponse sw (ackOpcode sw) p = .ok (.softwareResetAck p) := by
  have hne := swReset_ne_documented h
  simp only [documentedRequests, List.forall_mem_cons] at hne
  simp [decodeResponse, ackOpcode, hne]

end

/-- A tag record is read back whatever its bytes 2 to 4 and its trailer are (43_tag_parser.md R313; log 15). -/
theorem decodeTagSpan_record (a b c : Byte) (pc rssi : Half) (ant : Byte) {epc trailer : List Byte}
    (hepc : epc.length = epcLength pc) (htrailer : trailer.length = 3) :
    decodeTagSpan ([sof0, sof1, a, b, c, hi8 pc, lo8 pc] ++ (epc ++ (hi8 rssi :: lo8 rssi :: ant :: trailer))) =
      .ok (.tagRecord pc epc rssi ant) := by
  generalize hw : [sof0, sof1, a, b, c, hi8 pc, lo8 pc] ++ (epc ++ (hi8 rssi :: lo8 rssi :: ant :: trailer)) = w
  have hlen : w.length = recordSpan (epcLength pc) := by
    simp [← hw, recordSpan, hepc, htrailer]
    omega
  have hslice : slice w 7 (7 + epcLength pc) = epc := by
    rw [← hw, ← hepc]
    exact slice_append_middle [_, _, _, _, _, _, _] epc _
  have htail : ∀ i, byteAt w (7 + epcLength pc + i) = byteAt (hi8 rssi :: lo8 rssi :: ant :: trailer) i := by
    intro i
    rw [← hw, ← hepc, Nat.add_assoc, byteAt_append_right _ (by simp)]
    simp [byteAt_append_right]
  have hpc : be16 (byteAt w 5) (byteAt w 6) = pc := by
    rw [← hw]
    exact be16_hi8_lo8 pc
  have hrssi : be16 (byteAt w (7 + epcLength pc)) (byteAt w (8 + epcLength pc)) = rssi := by
    rw [show 8 + epcLength pc = 7 + epcLength pc + 1 by omega, show byteAt w (7 + epcLength pc) = _ from htail 0, htail 1]
    exact be16_hi8_lo8 rssi
  have hant : byteAt w (9 + epcLength pc) = ant := by
    rw [show 9 + epcLength pc = 7 + epcLength pc + 2 by omega, htail 2]
    rfl
  have hsof : byteAt w 0 = sof0 ∧ byteAt w 1 = sof1 := by
    rw [← hw]
    exact ⟨rfl, rfl⟩
  have hlong : ¬ recordSpan (epcLength pc) < 7 := by
    unfold recordSpan
    omega
  simp only [decodeTagSpan, hlong, hsof, hpc, hlen, hslice, hrssi, hant, ne_eq, not_true, or_self, if_false]

theorem decodeTagSpan_frameEncode (op : Byte) (pc rssi : Half) (ant : Byte) {epc : List Byte} (hepc : epc.length = epcLength pc) :
    decodeTagSpan (frameEncode op (tagFrameParams pc epc rssi ant)) = .ok (.tagRecord pc epc rssi ant) := by
  let p := tagFrameParams pc epc rssi ant
  have hframe : frameEncode op p = [sof0, sof1, hi8 (lengthField p), lo8 (lengthField p), op, hi8 pc, lo8 pc] ++
      (epc ++ (hi8 rssi :: lo8 rssi :: ant :: [checksum (checkedBytes op p), eof0, eof1])) := by
    simp [frameEncode_eq_params, p, tagFrameParams]
  rw [hframe]
  exact decodeTagSpan_record _ _ _ pc rssi ant hepc rfl

/-! ### The request layouts (44_commands.md R351 to R359) -/

section
variable (sw : Byte)

theorem decodeRequest_setPower (nvm power1 power2 : Half) :
    decodeRequest sw opSetPower (setPowerParams nvm power1 power2) = .ok (.setPower nvm power1 power2) := by
  have hread : decodeRequest sw opSetPower (setPowerParams nvm power1 power2) =
    .ok (.setPower (be16 (hi8 nvm) (lo8 nvm)) (be16 (hi8 power1) (lo8 power1)) (be16 (hi8 power2) (lo8 power2))) := rfl
  simpa only [be16_hi8_lo8] using hread

theorem decodeRequest_setAntenna (rsv : Half) (mask : Byte) :
    decodeRequest sw opSetAntenna (setAntennaParams rsv mask) = .ok (.setAntenna rsv mask) :=
  congrArg (fun x => Except.ok (Instr.setAntenna x mask)) (be16_hi8_lo8 rsv)

theorem decodeRequest_setRfMode (nvm : Half) (mode : Byte) :
    decodeRequest sw opSetRfMode (setRfModeParams nvm mode) = .ok (.setRfMode nvm mode) :=
  congrArg (fun x => Except.ok (Instr.setRfMode x mode)) (be16_hi8_lo8 nvm)

theorem decodeRequest_getRfMode (rsv : Half) : decodeRequest sw opGetRfMode (getRfModeParams rsv) = .ok (.getRfMode rsv) :=
  congrArg (fun x => Except.ok (Instr.getRfMode x)) (be16_hi8_lo8 rsv)

theorem decodeRequest_setDwell (nvm : Byte) (work wait : Half) :
    decodeRequest sw opSetDwell (setDwellParams nvm work wait) = .ok (.setDwell nvm work wait) := by
  have hread : decodeRequest sw opSetDwell (setDwellParams nvm work wait) =
    .ok (.setDwell nvm (be16 (hi8 work) (lo8 work)) (be16 (hi8 wait) (lo8 wait))) := rfl
  simpa only [be16_hi8_lo8] using hread

theorem decodeRequest_inventoryStart (cycles : Half) :
    decodeRequest sw opInventoryStart (inventoryStartParams cycles) = .ok (.inventoryStart cycles) :=
  congrArg (fun x => Except.ok (Instr.inventoryStart x)) (be16_hi8_lo8 cycles)

end

/-! ### Every instruction -/

/-- Settles O58: each instruction's entry is of a kind read back above; a register, a command or a documented opcode given as a number
is then found by evaluation. -/
theorem decodeReadsBackEveryEncoding : Obligations.DecodeReadsBackEveryEncoding := by
  intro sw i hsw hwf
  cases i
  case setPower => exact (decode_encodeRequest sw _ rfl).trans (decodeRequest_setPower ..)
  case setAntenna => exact (decode_encodeRequest sw _ rfl).trans (decodeRequest_setAntenna ..)
  case setRfMode => exact (decode_encodeRequest sw _ rfl).trans (decodeRequest_setRfMode ..)
  case getRfMode => exact (decode_encodeRequest sw _ rfl).trans (decodeRequest_getRfMode ..)
  case setDwell => exact (decode_encodeRequest sw _ rfl).trans (decodeRequest_setDwell ..)
  case inventoryStart => exact (decode_encodeRequest sw _ rfl).trans (decodeRequest_inventoryStart ..)
  case getPower | getAntenna | getDwell | inventoryStop => exact decode_encodeRequest sw _ rfl
  case softwareReset => exact (decode_encodeRequest sw sw rfl).trans (decodeRequest_swReset hsw)
  case setPowerAck | getPowerAck | setAntennaAck | getAntennaAck | setRfModeAck | getRfModeAck | setDwellAck | getDwellAck |
      inventoryStartAck | inventoryStopAck =>
    exact decode_encodeResponse sw _ hwf
  case softwareResetAck p => exact (decode_encodeResponse sw sw hwf).trans (decodeResponse_swReset hsw p)
  case tagRecord pc epc rssi ant => exact decodeTagSpan_frameEncode tagFrameOpcode pc rssi ant (beq_iff_eq.mp hwf)
  case txSend | txClr | rxPop | rxFlush | tagPop | tagEnd | tagFlush | cntClr | blkReset =>
    exact decode_encodeWrite sw 0x0C#8 _
  case ctrlWrite | statusW1c | ieWrite | txOpcodeWrite | txDataWrite | expOpcodeWrite => exact decode_encodeWrite sw _ _
  case cmdWrite v =>
    have hlone : isLoneCommand v = false := by simpa [Instr.wellFormed] using hwf
    exact (decode_encodeWrite sw 0x0C#8 v).trans (congrArg Except.ok (decodeWrite_cmd hlone))
  case roOrUnmappedWrite o v =>
    obtain ⟨halign, hnone⟩ := (Bool.and_eq_true _ _).mp hwf
    exact (decode_encodeWrite sw o v).trans (congrArg Except.ok (decodeWrite_noEffect (beq_iff_eq.mp halign) hnone v))
  case tagEpcRead k => exact (decode_encodeRead sw _).trans (congrArg Except.ok (decodeRead_tagEpc k))
  case unmappedOrWoRead o =>
    obtain ⟨halign, hzero⟩ := (Bool.and_eq_true _ _).mp hwf
    exact (decode_encodeRead sw o).trans (congrArg Except.ok (decodeRead_zero (beq_iff_eq.mp halign) hzero))
  case ctrlRead | statusRead | ieRead | txOpcodeRead | txPlenRead | expOpcodeRead | rxHdrRead | rxInfoRead | rxRidxRead | tagHdrRead |
      tagRssiRead | levelsRead | cntRxdropRead | cntFramesRead | cntTagsRead | cfg0Read | cfg1Read | rxDataRead =>
    exact decode_encodeRead sw _
  case rxByte | tagFeed | rxLineError | txAccept | delinStep | tagStep | hardReset => rfl

end Sys2Proof.Machine
end

section
/-! What the decoder reads is well-formed (30_encoding.md R132, R138, 10_state.md R33). -/

namespace Sys2Proof.Machine

/-! ### Bus accesses -/

/-- Bits 1:0 of an offset are cleared (20_memory.md R105). -/
theorem registerOffset_toNat (off : Byte) : (registerOffset off).toNat = 4 * (off.toNat / 4) := by
  have hshift : registerOffset off = off >>> 2 <<< 2 := by
    apply BitVec.eq_of_getLsbD_eq
    intro i hi
    interval_cases i <;> simp [registerOffset]
  have hoff := off.isLt
  rw [hshift, BitVec.toNat_shiftLeft, BitVec.toNat_ushiftRight, Nat.shiftRight_eq_div_pow, Nat.shiftLeft_eq]
  omega

@[simp] theorem registerOffset_idem (off : Byte) : registerOffset (registerOffset off) = registerOffset off := by
  apply BitVec.eq_of_toNat_eq
  simp only [registerOffset_toNat]
  omega

/-- A write to CMD is its lone command, or a CMD write that is none (log 16). -/
theorem loneCommand_getD_wellFormed (v : Word) : ((loneCommand v).getD (.cmdWrite v)).wellFormed = true := by
  cases h : isLoneCommand v
  · simp [loneCommand_none h, Instr.wellFormed, h]
  · simp only [isLoneCommand, List.contains_eq_mem, decide_eq_true_eq, List.mem_cons, List.not_mem_nil, or_false] at h
    rcases h with rfl | rfl | rfl | rfl | rfl | rfl | rfl | rfl | rfl <;> rfl

theorem decodeWrite_wellFormed (off : Byte) (v : Word) : (decodeWrite off v).wellFormed = true := by
  have halign := registerOffset_toNat off
  simp only [decodeWrite]
  split_ifs with h00 h04 h08 h0C h10 h14 h1C
  · rfl
  · rfl
  · rfl
  · exact loneCommand_getD_wellFormed v
  · rfl
  · rfl
  · rfl
  · have hnone : writeHasNoEffect (registerOffset off) = true := by
      simp only [BitVec.toNat_eq, BitVec.toNat_ofNat] at h00 h04 h08 h0C h10 h14 h1C
      simp only [writeHasNoEffect, BitVec.ule, Bool.or_eq_true, beq_iff_eq, decide_eq_true_eq, BitVec.toNat_eq, BitVec.toNat_ofNat]
      omega
    simp [Instr.wellFormed, hnone]

theorem wellFormed_ite {c : Prop} [Decidable c] {i j : Instr} (hi : i.wellFormed = true) (hj : j.wellFormed = true) :
    (if c then i else j).wellFormed = true := by
  split
  · exact hi
  · exact hj

/-- The eighteen registers with a read of their own, then the offsets without one and TAG_EPC0 to TAG_EPC15. -/
theorem decodeRead_wellFormed (off : Byte) : (decodeRead off).wellFormed = true := by
  unfold decodeRead
  iterate 18 refine wellFormed_ite rfl ?_
  split_ifs with hzero
  · simp [Instr.wellFormed, hzero]
  · rfl

/-! ### Every kind of entry -/

/-- PARAMS are 8 bytes shorter than a frame, whose length a 16-bit LENGTH holds (30_encoding.md R132). -/
theorem parseFrame_paramsFit {f p : List Byte} {op : Byte} (h : parseFrame f = .ok (op, p)) : paramsFit p = true := by
  unfold parseFrame at h
  split_ifs at h with hshort hsof hlength hchk heof
  cases h
  have hbound := (be16 (byteAt f 2) (byteAt f 3)).isLt
  simp only [paramsFit, decide_eq_true_eq, slice_length, maxParams]
  omega

/-- The instruction a decoding answers, if any, is well-formed. -/
def OkWellFormed (r : Except DecodeError Instr) : Prop := ∀ i, r = .ok i → i.wellFormed = true

namespace OkWellFormed

theorem ok {i : Instr} (h : i.wellFormed = true) : OkWellFormed (.ok i) := by
  intro j hj
  cases hj
  exact h

theorem error {e : DecodeError} : OkWellFormed (.error e) := nofun

theorem ite {c : Prop} [Decidable c] {a b : Except DecodeError Instr} (ha : OkWellFormed a) (hb : OkWellFormed b) :
    OkWellFormed (if c then a else b) := by
  split
  · exact ha
  · exact hb

theorem busWrite (body : List Byte) : OkWellFormed (decodeBusWrite body) := by
  unfold decodeBusWrite
  split
  · refine ite ?_ error
    split
    · exact ok (decodeWrite_wellFormed _ _)
    · exact error
  · exact error

theorem busRead (body : List Byte) : OkWellFormed (decodeBusRead body) := by
  unfold decodeBusRead
  split
  · exact ite (ok (decodeRead_wellFormed _)) error
  · exact error

theorem oneByte (body : List Byte) {mk : Byte → Instr} (h : ∀ b, (mk b).wellFormed = true) : OkWellFormed (decodeOneByte body mk) := by
  unfold decodeOneByte
  split
  · exact ok (h _)
  · exact error

theorem noByte (body : List Byte) {i : Instr} (h : i.wellFormed = true) : OkWellFormed (decodeNoByte body i) := by
  unfold decodeNoByte
  split
  · exact ok h
  · exact error

/-- Every request is well-formed, whatever its operands are: each of the eleven opcodes asks its layout only. -/
theorem request (sw op : Byte) (p : List Byte) : OkWellFormed (decodeRequest sw op p) := by
  unfold decodeRequest
  iterate 11
    refine ite ?_ ?_
    · split
      · exact ok rfl
      · exact error
  exact error

theorem response (sw op : Byte) {p : List Byte} (hp : paramsFit p = true) : OkWellFormed (decodeResponse sw op p) := by
  unfold decodeResponse
  iterate 11 refine ite (ok hp) ?_
  exact error

theorem requestFrame (sw : Byte) (f : List Byte) : OkWellFormed (decodeRequestFrame sw f) := by
  unfold decodeRequestFrame
  split
  · exact request _ _ _
  · exact error

theorem responseFrame (sw : Byte) (f : List Byte) : OkWellFormed (decodeResponseFrame sw f) := by
  unfold decodeResponseFrame
  split
  · next hparse => exact response _ _ (parseFrame_paramsFit hparse)
  · exact error

/-- A record's EPC is as long as its PC word declares (30_encoding.md R138). -/
theorem tagSpan (w : List Byte) : OkWellFormed (decodeTagSpan w) := by
  unfold decodeTagSpan
  refine ite error (ite error ?_)
  dsimp only
  split_ifs with hlength
  · exact error
  · simp only [not_not, recordSpan] at hlength
    refine ok ?_
    simp only [Instr.wellFormed, beq_iff_eq, slice_length]
    omega

end OkWellFormed

/-- Settles O59: one lemma per kind of entry. -/
theorem decodedInstructionsAreWellFormed : Obligations.DecodedInstructionsAreWellFormed := by
  intro sw m
  change OkWellFormed (decode sw m)
  cases m with
  | nil => exact .error
  | cons k body =>
    simp only [decode]
    split
    · exact .error
    · exact .busWrite body
    · exact .busRead body
    · exact .requestFrame sw body
    · exact .responseFrame sw body
    · exact .tagSpan body
    · exact .oneByte body fun _ => rfl
    · exact .oneByte body fun _ => rfl
    all_goals exact .noByte body rfl

/-- Settles O60: the decoder evaluated on each word. -/
theorem writtenOutWordsDecode : Obligations.WrittenOutWordsDecode := ⟨rfl, rfl, rfl, rfl, rfl, rfl⟩

end Sys2Proof.Machine
end

section
/-! The accesses of `send` (30_encoding.md R146) and the single step of a request leave the same state. -/

namespace Sys2Proof.Machine

/-! ### The TX writes while TX_BUSY is 0 (41_tx_framer.md R220 to R223) -/

section
variable {s : State} (hidle : s.txBusy = false)
include hidle

theorem txClr_idle : txClr s = setTxbuf [] s := by simp [txClr, hidle]

theorem txSend_idle : txSend s = latchFrame s := by simp [txSend, hidle]

theorem txOpcodeWrite_idle (op : Byte) : txOpcodeWrite (op.setWidth 32) s = setTxOpcode op s := by
  simp [txOpcodeWrite, hidle, BitVec.setWidth_setWidth_of_le]

theorem txDataWrite_idle (b : Byte) (hroom : s.txbuf.length < s.cfg.txpDepth) :
    txDataWrite (b.setWidth 32) s = setTxbuf (s.txbuf ++ [b]) s := by
  simp [txDataWrite, hidle, hroom.ne, BitVec.setWidth_setWidth_of_le]

end

/-! ### The program and the single step -/

/-- TX_DATA writes append their bytes while TXBUF has room. -/
theorem pushParams_idle {p : List Byte} {s : State} (hidle : s.txBusy = false) (hroom : s.txbuf.length + p.length ≤ s.cfg.txpDepth) :
    pushParams p s = setTxbuf (s.txbuf ++ p) s := by
  induction p generalizing s with
  | nil => simp [pushParams, setTxbuf]
  | cons b p ih =>
    rw [List.length_cons] at hroom
    calc pushParams (b :: p) s = pushParams p (setTxbuf (s.txbuf ++ [b]) s) :=
          congrArg (pushParams p) (txDataWrite_idle hidle b (by omega))
      _ = setTxbuf (s.txbuf ++ [b] ++ p) s := ih hidle (by simp; omega)
      _ = setTxbuf (s.txbuf ++ b :: p) s := by rw [List.append_assoc, List.singleton_append]

/-- `send` loads and latches its frame (30_encoding.md R146, 41_tx_framer.md R223). -/
theorem hostSend_idle (op : Byte) {p : List Byte} {s : State} (hidle : s.txBusy = false) (hroom : p.length ≤ s.cfg.txpDepth) :
    hostSend op p s = Statements.afterSend op p s := by
  let polled := busReturn (statusValue s) s
  let opened := setTxOpcode op (setTxbuf [] polled)
  have hopened : txOpcodeWrite (op.setWidth 32) (txClr polled) = opened := by
    rw [txClr_idle (s := polled) hidle]
    exact txOpcodeWrite_idle (s := setTxbuf [] polled) hidle op
  have hloaded : pushParams p opened = setTxbuf p opened :=
    pushParams_idle (s := opened) hidle (by simpa [opened, polled] using hroom)
  calc hostSend op p s = txSend (pushParams p (txOpcodeWrite (op.setWidth 32) (txClr polled))) := by simp [hostSend, hidle, polled]
    _ = latchFrame (setTxbuf p opened) := by rw [hopened, hloaded, txSend_idle (s := setTxbuf p opened) hidle]
    _ = Statements.afterSend op p s := rfl

/-- A run of TX_DATA writes is `pushParams`. -/
theorem execAll_txDataWrites (p : List Byte) (rest : List Instr) (s : State) :
    execAll (p.map (fun b => .txDataWrite (b.setWidth 32)) ++ rest) s = execAll rest (pushParams p s) := by
  induction p generalizing s with
  | nil => rfl
  | cons b p ih => exact ih (txDataWrite (b.setWidth 32) s)

/-- The accesses of `send` are its single step (log 7). -/
theorem execAll_sendAccesses (op : Byte) (p : List Byte) {s : State} (hidle : s.txBusy = false) :
    execAll (sendAccesses op p) s = .next (hostSend op p s) := by
  rcases hostSend_cases op p s with ⟨hbusy, -⟩ | ⟨-, e⟩
  · exact absurd hbusy (ne_true_of_eq_false hidle)
  · rw [e]
    exact execAll_txDataWrites p [.txSend] _

/-- Settles O49: the accesses are the single step, and the single step loads and latches the frame. -/
theorem sendProgramLoadsAndLatches : Obligations.SendProgramLoadsAndLatches := by
  intro s op p hidle hroom
  rw [execAll_sendAccesses op p hidle, hostSend_idle op hidle hroom]

end Sys2Proof.Machine
end

section
/-! The host access family (40_host_access.md): the commands of one CMD word run in the order of R189. -/

namespace Sys2Proof.Machine

open Sys2Proof.Statements

theorem cmdWrite_of_blkReset {v : Word} (h : v.getLsbD 31 = true) (s : State) : cmdWrite v s = blkReset s := if_pos h

/-- Without bit 31 a CMD write is the chain of its guarded commands, RX_FLUSH first (40_host_access.md R189). -/
theorem cmdWrite_of_commands {v : Word} (h : v.getLsbD 31 = false) (s : State) :
    cmdWrite v s =
      whenBit v 7 cntClr (whenBit v 0 txSend (whenBit v 1 txClr (whenBit v 5 tagEnd (whenBit v 4 tagPop
        (whenBit v 6 tagFlush (whenBit v 2 rxPop (whenBit v 3 rxFlush s))))))) :=
  if_neg (ne_true_of_eq_false h)

theorem whenBit_of_clear {v : Word} {n : Nat} (h : v.getLsbD n = false) (f : State → State) (s : State) : whenBit v n f s = s :=
  if_neg (ne_true_of_eq_false h)

/-- The commands of the table `l` whose bits are 1 in `v`; `commandsOf` takes R189's whole table. -/
def commandsIn (v : Word) (l : List (Nat × Instr)) : List Instr := (l.filter (fun c => v.getLsbD c.1)).map Prod.snd

theorem commandsOf_eq (v : Word) : commandsOf v = commandsIn v commandOrder := rfl

/-- The first command of the table runs when its bit is 1, before the rest. -/
theorem execAll_commandsIn_cons {i : Instr} {f : State → State} (h : ∀ s, exec i s = .next (f s)) (v : Word) (n : Nat)
    (l : List (Nat × Instr)) (s : State) : execAll (commandsIn v ((n, i) :: l)) s = execAll (commandsIn v l) (whenBit v n f s) := by
  rcases whenBit_cases v n f s with ⟨hbit, e⟩ | ⟨hbit, e⟩
  · simp [commandsIn, hbit, execAll, h, e]
  · simp [commandsIn, hbit, e]

theorem execAll_commandsOf {v : Word} (h : v.getLsbD 31 = false) (s : State) : execAll (commandsOf v) s = .next (cmdWrite v s) := by
  rw [commandsOf_eq, cmdWrite_of_commands h, commandOrder, execAll_commandsIn_cons (f := rxFlush) fun _ => rfl,
    execAll_commandsIn_cons (f := rxPop) fun _ => rfl, execAll_commandsIn_cons (f := tagFlush) fun _ => rfl,
    execAll_commandsIn_cons (f := tagPop) fun _ => rfl, execAll_commandsIn_cons (f := tagEnd) fun _ => rfl,
    execAll_commandsIn_cons (f := txClr) fun _ => rfl, execAll_commandsIn_cons (f := txSend) fun _ => rfl,
    execAll_commandsIn_cons (f := cntClr) fun _ => rfl]
  rfl

theorem cmdWrite_of_no_command {v : Word} (hblk : v.getLsbD 31 = false) (h : ∀ i, i ≤ 7 → v.getLsbD i = false) (s : State) :
    cmdWrite v s = s := by
  have hskip : ∀ i ≤ 7, ∀ f t, whenBit v i f t = t := fun i hi f t => whenBit_of_clear (h i hi) f t
  simp [cmdWrite_of_commands hblk, hskip]

/-- Settles O24: a CMD write is the run of its commands, one guarded command after another. -/
theorem cmdWriteRunsItsCommandsInOrder : Obligations.CmdWriteRunsItsCommandsInOrder := by
  intro v s
  refine ⟨fun h => ⟨blkReset s, congrArg _ (cmdWrite_of_blkReset h s), rfl⟩,
    fun h => ⟨cmdWrite v s, rfl, execAll_commandsOf h s⟩, fun ⟨hblk, h⟩ => ?_⟩
  exact congrArg Host.Outcome.next (cmdWrite_of_no_command hblk h s)

end Sys2Proof.Machine
end

section
/-! Bus accesses at an offset and at a host address (40_host_access.md R180, R181, R187, 20_memory.md R101, R105). -/

namespace Sys2Proof.Machine

/-! ### A scheduled access at an offset -/

section
variable {s : State} {off : Byte} {rest : List (List Byte)}

theorem step_encodeRead (hp : s.pending = encodeRead off :: rest) : step s = exec (decodeRead off) { s with pending := rest } :=
  scheduledEntryRunsItsInstruction s _ rest _ hp (decode_encodeRead _ off) (decodeRead_wellFormed off)

theorem decodeWrite_registerOffset (off : Byte) (v : Word) : decodeWrite (registerOffset off) v = decodeWrite off v := by
  simp only [decodeWrite, registerOffset_idem]

theorem step_encodeWrite {v : Word} (hp : s.pending = encodeWrite off v :: rest) :
    step s = exec (decodeWrite off v) { s with pending := rest } :=
  scheduledEntryRunsItsInstruction s _ rest _ hp (decode_encodeWrite _ off v) (decodeWrite_wellFormed off v)

end

theorem exec_read_ite {c : Prop} [Decidable c] {i j : Instr} {x y : Word} {s : State}
    (hi : c → exec i s = .next (busReturn x s)) (hj : exec j s = .next (busReturn y s)) :
    exec (if c then i else j) s = .next (busReturn (if c then x else y) s) := by
  split
  · next hc => exact hi hc
  · exact hj

/-- The read an offset decodes to returns the value of the register there: `decodeRead` and `registerValue` test the same offsets in
the same order. RX_DATA, after the first eight, is the one read that does more (20_memory.md R107). -/
theorem exec_decodeRead {off : Byte} (h : registerOffset off ≠ 0x28#8) (s : State) :
    exec (decodeRead off) s = .next (busReturn (registerValue off s) s) := by
  unfold decodeRead registerValue
  iterate 8 refine exec_read_ite (fun _ => rfl) ?_
  refine exec_read_ite (fun hc => absurd hc h) ?_
  iterate 9 refine exec_read_ite (fun _ => rfl) ?_
  exact exec_read_ite (fun _ => rfl) rfl

theorem registerValue_of_pending (off : Byte) (rest : List (List Byte)) (s : State) :
    registerValue off { s with pending := rest } = registerValue off s := rfl

/-- A lone command is the CMD write of its bit (log 16). -/
theorem exec_loneCommand (v : Word) (s : State) : exec ((loneCommand v).getD (.cmdWrite v)) s = exec (.cmdWrite v) s := by
  cases h : isLoneCommand v
  · rw [loneCommand_none h, Option.getD_none]
  · simp only [isLoneCommand, List.contains_eq_mem, decide_eq_true_eq, List.mem_cons, List.not_mem_nil, or_false] at h
    rcases h with rfl | rfl | rfl | rfl | rfl | rfl | rfl | rfl | rfl <;> rfl

theorem writeHasNoEffect_of_offset {o : Byte} (h : o = 0x18#8 ∨ 0x20 ≤ o.toNat) : writeHasNoEffect o = true := by
  rcases h with rfl | h
  · rfl
  · simp [writeHasNoEffect, BitVec.ule, h]

/-! ### A scheduled access at a host address (20_memory.md R101; log 22) -/

theorem windowOffset_inside {base addr : Nat} {off : Byte} (h : addr = base + off.toNat) : windowOffset base addr = some off := by
  have hoff := off.isLt
  rcases windowOffset_cases base addr with ⟨o, ho, e⟩ | ⟨hout, -⟩
  · rw [e, BitVec.eq_of_toNat_eq (show o.toNat = off.toNat by omega)]
  · omega

theorem windowOffset_outside {base addr : Nat} (h : addr < base ∨ base + 0xFF < addr) : windowOffset base addr = none := by
  rcases windowOffset_cases base addr with ⟨off, hoff, -⟩ | ⟨-, e⟩
  · have := off.isLt
    omega
  · exact e

section
variable {base : Nat} {addr : List Byte}

theorem routeAccess_inside {off : Byte} (h : addressOf addr = base + off.toNat) (kind size : Byte) (data : List Byte) :
    routeAccess base kind addr.length (addr ++ size :: data) = .rlf (kind :: size :: off :: data) := by
  simp [routeAccess, windowOffset_inside h, byteAt_append_right, List.drop_append]

theorem routeAccess_outside (h : addressOf addr < base ∨ base + 0xFF < addressOf addr) (kind size : Byte) (data : List Byte) :
    routeAccess base kind addr.length (addr ++ size :: data) = .elsewhere := by
  simp [routeAccess, windowOffset_outside h]

/-- One byte counts the address bytes. -/
theorem addressCount_toNat (h : addr.length ≤ 255) : (BitVec.ofNat 8 addr.length).toNat = addr.length := by
  rw [BitVec.toNat_ofNat]
  omega

theorem route_encodeHostRead (h : addr.length ≤ 255) :
    route base (encodeHostRead addr) = routeAccess base StepKind.busRead.code addr.length (addr ++ [fullAccess]) := by
  rw [← addressCount_toNat h]
  rfl

theorem route_encodeHostWrite (h : addr.length ≤ 255) (v : Word) :
    route base (encodeHostWrite addr v) =
      routeAccess base StepKind.busWrite.code addr.length (addr ++ fullAccess :: wordBytes v) := by
  rw [← addressCount_toNat h]
  rfl

end

section
variable {s : State} {m : List Byte} {rest : List (List Byte)}

/-- An access routed to RLF's entry `e` runs as `e`, which is routed as it stands. -/
theorem step_routed {e : List Byte} (hp : s.pending = m :: rest) (hm : route s.cfg.rlfBase m = .rlf e)
    (he : route s.cfg.rlfBase e = .rlf e) : step s = step { s with pending := e :: rest } := by
  rw [step_pending s m rest hp, dropPending_eq hp, step_pending { s with pending := e :: rest } e rest rfl]
  simp [runEntry, dropPending, hm, he]

theorem step_elsewhere (hp : s.pending = m :: rest) (hm : route s.cfg.rlfBase m = .elsewhere) :
    step s = .next { s with pending := rest } := by
  rw [step_pending s m rest hp, dropPending_eq hp]
  simp [runEntry, hm]

end

/-! ### The obligations about bus accesses -/

/-- Settles O8: each read returns its register's value, zero-extended where it is narrower than 32 bits. -/
theorem storedRegistersReadBack : Obligations.StoredRegistersReadBack := by
  intro s
  simp only [BitVec.ofNat_toNat]
  exact ⟨rfl, rfl, rfl, rfl, rfl, rfl, rfl, rfl, fun _ => rfl⟩

/-- Settles O14: the read an offset decodes to returns `registerValue`, and a host address in the window is routed to its offset. -/
theorem everyOffsetReadsItsRegister : Obligations.EveryOffsetReadsItsRegister := by
  refine ⟨fun s off rest hp hoff => ?_, fun s addr rest hlen hp => ⟨fun off haddr => ?_, fun hout => ?_⟩⟩
  · rw [step_encodeRead hp, exec_decodeRead hoff, registerValue_of_pending]
    rfl
  · refine step_routed hp ?_ (route_own _ _ _ (by decide) (by decide))
    rw [route_encodeHostRead hlen, routeAccess_inside haddr]
    rfl
  · refine step_elsewhere hp ?_
    rw [route_encodeHostRead hlen, routeAccess_outside hout]

/-- Settles O18: the write an offset decodes to is its register's, a lone command is the CMD write, and host addresses are routed as for
reads. -/
theorem everyOffsetWritesItsRegister : Obligations.EveryOffsetWritesItsRegister := by
  refine ⟨fun s off v rest hp => ?_, fun s addr v rest hlen hp => ⟨fun off haddr => ?_, fun hout => ?_⟩⟩
  · have hwrite (o : Byte) (ho : off &&& 0xFC#8 = o) : step s = exec (decodeWrite o v) { s with pending := rest } := by
      rw [step_encodeWrite hp, ← decodeWrite_registerOffset, show registerOffset off = o from ho]
    exact ⟨hwrite _, hwrite _, hwrite _, fun ho => (hwrite _ ho).trans (exec_loneCommand v _), hwrite _, hwrite _, hwrite _⟩
  · refine step_routed hp ?_ (route_own _ _ _ (by decide) (by decide))
    rw [route_encodeHostWrite hlen, routeAccess_inside haddr]
    rfl
  · refine step_elsewhere hp ?_
    rw [route_encodeHostWrite hlen, routeAccess_outside hout]

/-- Settles O19: every such offset decodes to the write without effect. -/
theorem readOnlyAndUnmappedWritesDoNothing : Obligations.ReadOnlyAndUnmappedWritesDoNothing := by
  refine ⟨fun s off v rest hp hoff => ?_, fun _ _ _ => rfl⟩
  rw [step_encodeWrite hp, decodeWrite_noEffect rfl (writeHasNoEffect_of_offset hoff)]
  rfl

end Sys2Proof.Machine
end

section
/-! The writes of CTRL, STATUS, IE and EXP_OPCODE, bit by bit (40_host_access.md R182 to R186, R193). -/

namespace Sys2Proof.Machine

/-- CTRL's four fields, and 0 in the reserved bits (10_state.md R34). -/
theorem ctrlWord_getLsbD (eof chk tag rxf : Bool) (i : Nat) :
    (ctrlWord eof chk tag rxf).getLsbD i =
      if i = 0 then rxf else if i = 1 then tag else if i = 2 then chk else if i = 3 then eof else false := by
  simp only [ctrlWord, BitVec.getLsbD_append, BitVec.getLsbD_ofBool]
  match i with
  | 0 | 1 | 2 | 3 => simp
  | n + 4 => simp

theorem ctrlWord_getLsbD_of_le (eof chk tag rxf : Bool) {i : Nat} (h : 4 ≤ i) : (ctrlWord eof chk tag rxf).getLsbD i = false := by
  rw [ctrlWord_getLsbD, if_neg (by omega), if_neg (by omega), if_neg (by omega), if_neg (by omega)]

/-- A CTRL write as one record update: the word stored, and CMD_ERR where TAG_EN is refused (40_host_access.md R182, R193). -/
theorem ctrlWrite_eq (v : Word) (s : State) :
    ctrlWrite v s = { s with
      ctrl := ctrlWord (v.getLsbD 3) (v.getLsbD 2) (v.getLsbD 1 && !s.ending) (v.getLsbD 0)
      sticky := if v.getLsbD 1 && s.ending then s.sticky ||| 0x00010000#32 else s.sticky } := by
  unfold ctrlWrite
  cases v.getLsbD 1 && s.ending <;> rfl

/-- A sticky bit after a STATUS write (40_host_access.md R186). -/
theorem clearSticky_getLsbD (v : Word) (s : State) (i : Nat) :
    (clearSticky v s).sticky.getLsbD i =
      if 8 ≤ i ∧ i ≤ 18 then s.sticky.getLsbD i && !(v.getLsbD i) else s.sticky.getLsbD i := by
  rw [clearSticky_sticky, BitVec.getLsbD_and, BitVec.getLsbD_not, BitVec.getLsbD_and]
  have hwidth : s.sticky.getLsbD i = true → i < 32 := BitVec.lt_of_getLsbD
  by_cases hi : 8 ≤ i ∧ i ≤ 18
  · rw [if_pos hi, (stickyMask_getLsbD i).mpr hi, Bool.and_true, decide_eq_true (show i < 32 by omega), Bool.true_and]
  · rw [if_neg hi, Bool.eq_false_of_not_eq_true (mt (stickyMask_getLsbD i).mp hi), Bool.and_false, Bool.not_false, Bool.and_true]
    simpa using hwidth

/-- Settles O15: the refused TAG_EN raises CMD_ERR, and the stored word has the four fields. -/
theorem ctrlWriteStoresItsFieldsAndGuardsTagEn : Obligations.CtrlWriteStoresItsFieldsAndGuardsTagEn := by
  intro v s
  refine ⟨ctrlWord (v.getLsbD 3) (v.getLsbD 2) (v.getLsbD 1 && !s.ending) (v.getLsbD 0), ?_, ctrlWord_getLsbD .., ctrlWord_getLsbD ..,
    ctrlWord_getLsbD .., ctrlWord_getLsbD .., fun i hi => ctrlWord_getLsbD_of_le _ _ _ _ hi⟩
  exact congrArg Host.Outcome.next (ctrlWrite_eq v s)

/-- Settles O16: the mask of the W1C write covers bits 18:8. -/
theorem statusWriteClearsTheBitsWrittenOne : Obligations.StatusWriteClearsTheBitsWrittenOne := fun v s =>
  ⟨_, rfl, clearSticky_getLsbD v s⟩

/-- Settles O17: IE keeps its implemented bits, and EXP_OPCODE the low byte. -/
theorem ieAndExpOpcodeWritesStoreTheirFields : Obligations.IeAndExpOpcodeWritesStoreTheirFields := by
  intro v s
  have hlow : v.setWidth 8 = BitVec.ofNat 8 (v.toNat % 256) := by
    apply BitVec.eq_of_toNat_eq
    simp
  refine ⟨rfl, ?_⟩
  rw [← hlow]
  rfl

end Sys2Proof.Machine
end

section
/-! CMD_ERR and the end of burst (40_host_access.md R188, R193, 43_tag_parser.md R310): every instruction but a CTRL or a CMD write
either refuses with CMD_ERR or is quiet. -/

namespace Sys2Proof.Machine

open Sys2Proof.Statements

/-! ### Quiet changes of the state -/

/-- STATUS.CMD_ERR (10_state.md R36). -/
def cmdErrSet (s : State) : Bool := s.sticky.getLsbD 16

/-- From `s` to `t` CMD_ERR is not raised, and a closed tag intake stays closed: no byte enters W while TAG_EN is 0. -/
structure Quiet (s t : State) : Prop where
  cmdErr : cmdErrSet s = false → cmdErrSet t = false
  closed : tagEn s = false → tagEn t = false ∧ t.win <:+ s.win

section
variable {s t u : State}

theorem Quiet.refl (s : State) : Quiet s s := ⟨id, fun h => ⟨h, List.suffix_rfl⟩⟩

theorem Quiet.trans (hst : Quiet s t) (htu : Quiet t u) : Quiet s u where
  cmdErr h := htu.cmdErr (hst.cmdErr h)
  closed h := by
    obtain ⟨ht, hwin⟩ := hst.closed h
    obtain ⟨hu, hwin'⟩ := htu.closed ht
    exact ⟨hu, hwin'.trans hwin⟩

/-- A change that leaves the sticky bits and CTRL alone and puts no byte into W is quiet. -/
theorem Quiet.of_suffix (hsticky : t.sticky = s.sticky) (hctrl : t.ctrl = s.ctrl) (hwin : t.win <:+ s.win) : Quiet s t where
  cmdErr h := by rw [cmdErrSet, hsticky]; exact h
  closed h := ⟨by rw [tagEn, hctrl]; exact h, hwin⟩

/-- So is one that leaves W as it is. -/
theorem Quiet.of_eq (hsticky : t.sticky = s.sticky) (hctrl : t.ctrl = s.ctrl) (hwin : t.win = s.win) : Quiet s t :=
  .of_suffix hsticky hctrl (hwin ▸ List.suffix_rfl)

end

theorem raise_cmdErrSet (e : Event) (s : State) : cmdErrSet (raise e s) = (cmdErrSet s || e == .cmdErr) := by
  rw [cmdErrSet, raise_sticky, BitVec.getLsbD_or]
  cases e <;> rfl

section
variable (s : State)

theorem quiet_raise {e : Event} (h : e ≠ .cmdErr) : Quiet s (raise e s) where
  cmdErr hs := by rw [raise_cmdErrSet, hs, beq_false_of_ne h, Bool.or_self]
  closed hs := ⟨hs, List.suffix_rfl⟩

theorem quiet_clearSticky (v : Word) : Quiet s (clearSticky v s) where
  cmdErr hs := by rw [cmdErrSet, clearSticky_sticky, BitVec.getLsbD_and, ← cmdErrSet, hs, Bool.false_and]
  closed hs := ⟨hs, List.suffix_rfl⟩

theorem quiet_beginEnding : Quiet s (beginEnding s) := ⟨id, fun _ => ⟨by simp [tagEn], List.suffix_rfl⟩⟩

theorem quiet_hardReset : Quiet s (hardReset s) := ⟨fun _ => by simp [cmdErrSet], fun _ => ⟨by simp [tagEn], List.nil_suffix⟩⟩

theorem quiet_blkReset : Quiet s (blkReset s) := ⟨fun _ => by simp [cmdErrSet], fun _ => ⟨by simp [tagEn], List.nil_suffix⟩⟩

theorem quiet_tagFlush : Quiet s (tagFlush s) := .of_suffix rfl rfl List.nil_suffix

theorem quiet_dropWin : Quiet s (dropWin s) := .of_suffix rfl rfl (List.drop_suffix 1 _)

theorem quiet_emitRecord (r : TagRecord) : Quiet s (emitRecord r s) := .of_suffix rfl rfl (List.drop_suffix _ _)

/-! ### The shared operations -/

theorem quiet_rxPop : Quiet s (rxPop s) := by
  rcases rxPop_cases s with ⟨-, e⟩ | ⟨-, e⟩ <;> rw [e]
  · exact .of_eq rfl rfl rfl
  · exact .refl s

theorem quiet_rxFlush : Quiet s (rxFlush s) := by
  rcases rxFlush_cases s with ⟨-, e⟩ | ⟨-, e⟩ <;> rw [e] <;> exact .of_eq rfl rfl rfl

theorem quiet_rxDataRead : Quiet s (rxDataRead s) := by
  rcases rxDataRead_cases s with ⟨-, -, e⟩ | ⟨-, e⟩ <;> rw [e] <;> exact .of_eq rfl rfl rfl

/-- A TX_DATA write while TX_BUSY is 0 may overflow TXBUF, which is not CMD_ERR. -/
theorem quiet_txDataWrite (v : Word) (h : s.txBusy = false) : Quiet s (txDataWrite v s) ∧ (txDataWrite v s).txBusy = false := by
  rcases txDataWrite_cases v s with ⟨hb, -⟩ | ⟨-, -, e⟩ | ⟨-, -, e⟩
  · simp [h] at hb
  · rw [e]
    exact ⟨quiet_raise s (by decide), h⟩
  · rw [e]
    exact ⟨.of_eq rfl rfl rfl, h⟩

/-- A request polls TX_BUSY first, so none of its accesses is refused. -/
theorem quiet_hostSend (op : Byte) (p : List Byte) : Quiet s (hostSend op p s) := by
  rcases hostSend_cases op p s with ⟨-, e⟩ | ⟨hidle, e⟩ <;> rw [e]
  · exact .of_eq rfl rfl rfl
  · rw [txClr_idle (s := busReturn (statusValue s) s) hidle,
      txOpcodeWrite_idle (s := setTxbuf [] (busReturn (statusValue s) s)) hidle]
    obtain ⟨hquiet, hloaded⟩ := pushParams_induct (fun t => Quiet s t ∧ t.txBusy = false)
      (fun b t ⟨ht, hb⟩ => (quiet_txDataWrite t _ hb).imp_left ht.trans) p
      (setTxOpcode op (setTxbuf [] (busReturn (statusValue s) s))) ⟨.of_eq rfl rfl rfl, hidle⟩
    rw [txSend_idle hloaded]
    exact hquiet.trans (.of_eq rfl rfl rfl)

/-- A fed byte enters W only while TAG_EN is 1. -/
theorem quiet_tagFeed (b : Byte) : Quiet s (tagFeed b s) := by
  rcases tagFeed_cases b s with ⟨-, e⟩ | ⟨-, -, e⟩ | ⟨hopen, -, -, e⟩ | ⟨-, -, -, e⟩ <;> rw [e]
  · exact .refl s
  · exact .of_eq rfl rfl rfl
  · exact ⟨id, fun hclosed => absurd hopen (ne_true_of_eq_false hclosed)⟩
  · exact quiet_raise s (by decide)

theorem quiet_rxByte (b : Byte) : Quiet s (rxByte b s) := by
  refine Quiet.trans ?_ (quiet_tagFeed (rxIntake b s) b)
  rcases rxIntake_cases b s with ⟨-, e⟩ | ⟨-, -, e⟩ | ⟨-, -, e⟩ <;> rw [e]
  · exact .refl s
  · exact .of_eq rfl rfl rfl
  · exact quiet_raise s (by decide)

theorem quiet_rxResponse (op : Byte) (p : List Byte) : Quiet s (rxResponse op p s) :=
  rxBytes_induct (Quiet s) (fun b t h => h.trans (quiet_rxByte t b)) _ s (.refl s)

theorem quiet_txAccept : Quiet s (txAccept s) := by
  rcases txAccept_cases s with ⟨-, e⟩ | ⟨-, -, e⟩ | ⟨-, -, e⟩ <;> rw [e]
  · exact .refl s
  · exact Quiet.trans (t := endTransmit (emitByte s)) (.of_eq rfl rfl rfl) (quiet_raise _ (by decide))
  · exact .of_eq rfl rfl rfl

theorem quiet_raiseChecks (k o : Bool) : Quiet s (raiseChecks k o s) := by
  have hchk : Quiet s (if k then s else raise .chkErr s) := by
    cases k
    · exact quiet_raise s (by decide)
    · exact .refl s
  cases o
  · exact hchk.trans (quiet_raise _ (by decide))
  · exact hchk

theorem quiet_delinStep : Quiet s (delinStep s) := by
  rcases delinStep_cases s with ⟨-, e⟩ | ⟨-, -, ⟨-, e⟩ | ⟨-, e⟩ | ⟨k, o, -, e⟩ | ⟨f, c, k, o, -, e⟩⟩ <;> rw [e]
  · exact .refl s
  · exact .of_eq rfl rfl rfl
  · exact (quiet_raise s (by decide)).trans (.of_eq rfl rfl rfl)
  · exact (quiet_raiseChecks s k o).trans (.of_eq rfl rfl rfl)
  · exact (quiet_raiseChecks s k o).trans (.of_eq rfl rfl rfl)

theorem quiet_tagStepRecord (r : TagRecord) : Quiet s (tagStepRecord r s) := by
  rcases tagStepRecord_cases r s with ⟨-, e⟩ | ⟨-, e⟩ <;> rw [e]
  · exact quiet_emitRecord s r
  · exact .refl s

theorem quiet_tagStep : Quiet s (tagStep s) := by
  rcases tagStep_cases s with ⟨-, -, e⟩ | ⟨-, -, e⟩ | ⟨-, e⟩ | ⟨-, e⟩ | ⟨-, e⟩ | ⟨r, -, e⟩ <;> rw [e]
  · exact Quiet.trans (t := endBurst s) (.of_eq rfl rfl rfl) (quiet_raise _ (by decide))
  · exact .refl s
  · exact .refl s
  · exact quiet_dropWin s
  · exact (quiet_raise s (by decide)).trans (quiet_dropWin _)
  · exact quiet_tagStepRecord s r

theorem quiet_tagRecordStep (r : TagRecord) : Quiet s (tagRecordStep r s) := by
  rcases tagRecordStep_cases r s with ⟨-, e⟩ | ⟨-, e⟩ <;> rw [e]
  · exact quiet_tagStepRecord s r
  · exact .refl s

end

/-! ### Every instruction but a CTRL or a CMD write -/

/-- The instruction refuses: it raises CMD_ERR and does nothing else. Or it has no cause to, and is quiet (40_host_access.md R188). -/
def RefusesOrQuiet (i : Instr) (s t : State) : Prop :=
  (cmdErrCause i s = true ∧ t = raise .cmdErr s) ∨ (cmdErrCause i s = false ∧ Quiet s t)

theorem cmdErrCause_ctrlWrite (v : Word) (s : State) : cmdErrCause (.ctrlWrite v) s = (v.getLsbD 1 && s.ending) := rfl

theorem cmdErrCause_cmdWrite (v : Word) (s : State) :
    cmdErrCause (.cmdWrite v) s =
      (!(v.getLsbD 31) && ((s.txBusy && (v.getLsbD 0 || v.getLsbD 1)) || (s.ending && v.getLsbD 5 && !(v.getLsbD 6)))) := rfl

theorem exec_next_refusesOrQuiet (i : Instr) (s : State) (hctrl : ∀ v, i ≠ .ctrlWrite v) (hcmd : ∀ v, i ≠ .cmdWrite v) :
    ∃ t, exec i s = .next t ∧ RefusesOrQuiet i s t := by
  cases i with
  | setPower _ _ _ | getPower | setAntenna _ _ | getAntenna | setRfMode _ _ | getRfMode _ | setDwell _ _ _ | getDwell
  | inventoryStart _ | inventoryStop | softwareReset => exact ⟨_, rfl, .inr ⟨rfl, quiet_hostSend s _ _⟩⟩
  | setPowerAck _ | getPowerAck _ | setAntennaAck _ | getAntennaAck _ | setRfModeAck _ | getRfModeAck _ | setDwellAck _
  | getDwellAck _ | inventoryStartAck _ | inventoryStopAck _ | softwareResetAck _ =>
    exact ⟨_, rfl, .inr ⟨rfl, quiet_rxResponse s _ _⟩⟩
  | tagRecord _ _ _ _ => exact ⟨_, rfl, .inr ⟨rfl, quiet_tagRecordStep s _⟩⟩
  | txSend => exact ⟨_, rfl, (txSend_cases s).imp_right fun ⟨hb, e⟩ => ⟨hb, e ▸ .of_eq rfl rfl rfl⟩⟩
  | txClr => exact ⟨_, rfl, (txClr_cases s).imp_right fun ⟨hb, e⟩ => ⟨hb, e ▸ .of_eq rfl rfl rfl⟩⟩
  | txOpcodeWrite v => exact ⟨_, rfl, (txOpcodeWrite_cases v s).imp_right fun ⟨hb, e⟩ => ⟨hb, e ▸ .of_eq rfl rfl rfl⟩⟩
  | txDataWrite v =>
    refine ⟨_, rfl, (txDataWrite_cases v s).imp_right fun h => ?_⟩
    have hidle : s.txBusy = false := by rcases h with ⟨hb, -⟩ | ⟨hb, -⟩ <;> exact hb
    exact ⟨hidle, (quiet_txDataWrite s v hidle).1⟩
  | tagEnd => exact ⟨_, rfl, (tagEnd_cases s).imp_right fun ⟨he, e⟩ => ⟨he, e ▸ quiet_beginEnding s⟩⟩
  | rxPop => exact ⟨_, rfl, .inr ⟨rfl, quiet_rxPop s⟩⟩
  | rxFlush => exact ⟨_, rfl, .inr ⟨rfl, quiet_rxFlush s⟩⟩
  | tagFlush => exact ⟨_, rfl, .inr ⟨rfl, quiet_tagFlush s⟩⟩
  | blkReset => exact ⟨_, rfl, .inr ⟨rfl, quiet_blkReset s⟩⟩
  | hardReset => exact ⟨_, rfl, .inr ⟨rfl, quiet_hardReset s⟩⟩
  | ctrlWrite v => exact absurd rfl (hctrl v)
  | cmdWrite v => exact absurd rfl (hcmd v)
  | statusW1c v => exact ⟨_, rfl, .inr ⟨rfl, quiet_clearSticky s v⟩⟩
  | roOrUnmappedWrite _ _ => exact ⟨_, rfl, .inr ⟨rfl, .refl s⟩⟩
  | tagPop | cntClr | ieWrite _ | expOpcodeWrite _
  | ctrlRead | statusRead | ieRead | txOpcodeRead | txPlenRead | expOpcodeRead | rxHdrRead | rxInfoRead | rxRidxRead
  | tagHdrRead | tagRssiRead | levelsRead | cntRxdropRead | cntFramesRead | cntTagsRead | cfg0Read | cfg1Read
  | tagEpcRead _ | unmappedOrWoRead _ => exact ⟨_, rfl, .inr ⟨rfl, .of_eq rfl rfl rfl⟩⟩
  | rxDataRead => exact ⟨_, rfl, .inr ⟨rfl, quiet_rxDataRead s⟩⟩
  | rxByte b => exact ⟨_, rfl, .inr ⟨rfl, quiet_rxByte s b⟩⟩
  | tagFeed b => exact ⟨_, rfl, .inr ⟨rfl, quiet_tagFeed s b⟩⟩
  | rxLineError => exact ⟨_, rfl, .inr ⟨rfl, quiet_raise s (by decide)⟩⟩
  | txAccept => exact ⟨_, rfl, .inr ⟨rfl, quiet_txAccept s⟩⟩
  | delinStep => exact ⟨_, rfl, .inr ⟨rfl, quiet_delinStep s⟩⟩
  | tagStep => exact ⟨_, rfl, .inr ⟨rfl, quiet_tagStep s⟩⟩

section
variable {i : Instr} {s t : State}

theorem exec_refusesOrQuiet (h : exec i s = .next t) (hctrl : ∀ v, i ≠ .ctrlWrite v) (hcmd : ∀ v, i ≠ .cmdWrite v) :
    RefusesOrQuiet i s t := by
  obtain ⟨u, hu, hcase⟩ := exec_next_refusesOrQuiet i s hctrl hcmd
  cases hu.symm.trans h
  exact hcase

theorem RefusesOrQuiet.cmdErr_iff (h : RefusesOrQuiet i s t) (hs : cmdErrSet s = false) :
    cmdErrSet t = true ↔ cmdErrCause i s = true := by
  rcases h with ⟨hcause, rfl⟩ | ⟨hcause, hquiet⟩
  · exact iff_of_true (by rw [raise_cmdErrSet]; exact Bool.or_true _) hcause
  · exact iff_of_false (ne_true_of_eq_false (hquiet.cmdErr hs)) (ne_true_of_eq_false hcause)

theorem RefusesOrQuiet.closed (h : RefusesOrQuiet i s t) (hs : tagEn s = false) : tagEn t = false ∧ t.win <:+ s.win := by
  rcases h with ⟨-, rfl⟩ | ⟨-, hquiet⟩
  · exact ⟨hs, List.suffix_rfl⟩
  · exact hquiet.closed hs

end

/-! ### A CTRL write -/

theorem ctrlWrite_cmdErrSet (v : Word) (s : State) : cmdErrSet (ctrlWrite v s) = (cmdErrSet s || (v.getLsbD 1 && s.ending)) := by
  rw [ctrlWrite_eq]
  cases v.getLsbD 1 && s.ending <;> simp [cmdErrSet]

/-- While an end of burst runs a CTRL write leaves TAG_EN at 0 (40_host_access.md R193). -/
theorem ctrlWrite_closed (v : Word) {s : State} (h : s.ending = true) :
    tagEn (ctrlWrite v s) = false ∧ (ctrlWrite v s).win = s.win := by
  rw [ctrlWrite_eq, tagEn, ctrlWord_getLsbD_one, h]
  exact ⟨Bool.and_false _, rfl⟩

/-! ### A CMD write

Of what the commands refuse on, TX_BUSY and ENDING, only TAG_FLUSH and TAG_END change ENDING before a command tests it, and nothing
changes TX_BUSY before TX_SEND. -/

/-- What a field is after a command of a CMD word. -/
theorem whenBit_apply {α : Type} (g : State → α) (v : Word) (n : Nat) (f : State → State) (s : State) :
    g (whenBit v n f s) = if v.getLsbD n then g (f s) else g s :=
  apply_ite g _ _ _

section
variable (s : State)

theorem rxPop_refusal : cmdErrSet (rxPop s) = cmdErrSet s ∧ (rxPop s).txBusy = s.txBusy ∧ (rxPop s).ending = s.ending := by
  rcases rxPop_cases s with ⟨-, e⟩ | ⟨-, e⟩ <;> rw [e] <;> exact ⟨rfl, rfl, rfl⟩

theorem rxFlush_refusal :
    cmdErrSet (rxFlush s) = cmdErrSet s ∧ (rxFlush s).txBusy = s.txBusy ∧ (rxFlush s).ending = s.ending :=
  rxPop_refusal (clearRxq s)

theorem tagFlush_refusal :
    cmdErrSet (tagFlush s) = cmdErrSet s ∧ (tagFlush s).txBusy = s.txBusy ∧ (tagFlush s).ending = false := ⟨rfl, rfl, rfl⟩

theorem tagPop_refusal : cmdErrSet (tagPop s) = cmdErrSet s ∧ (tagPop s).txBusy = s.txBusy ∧ (tagPop s).ending = s.ending :=
  ⟨rfl, rfl, rfl⟩

theorem tagEnd_refusal : cmdErrSet (tagEnd s) = (cmdErrSet s || s.ending) ∧ (tagEnd s).txBusy = s.txBusy := by
  rcases tagEnd_cases s with ⟨he, e⟩ | ⟨he, e⟩ <;> rw [e, he]
  · exact ⟨raise_cmdErrSet .cmdErr s, rfl⟩
  · exact ⟨(Bool.or_false _).symm, rfl⟩

theorem txClr_refusal : cmdErrSet (txClr s) = (cmdErrSet s || s.txBusy) ∧ (txClr s).txBusy = s.txBusy := by
  rcases txClr_cases s with ⟨hb, e⟩ | ⟨hb, e⟩ <;> rw [e, hb]
  · exact ⟨raise_cmdErrSet .cmdErr s, hb⟩
  · exact ⟨(Bool.or_false _).symm, hb⟩

theorem txSend_cmdErrSet : cmdErrSet (txSend s) = (cmdErrSet s || s.txBusy) := by
  rcases txSend_cases s with ⟨hb, e⟩ | ⟨hb, e⟩ <;> rw [e, hb]
  · exact raise_cmdErrSet .cmdErr s
  · exact (Bool.or_false _).symm

theorem cntClr_cmdErrSet : cmdErrSet (cntClr s) = cmdErrSet s := rfl

end

theorem cmdWrite_cmdErrSet {v : Word} (h : v.getLsbD 31 = false) (s : State) :
    cmdErrSet (cmdWrite v s) =
      (cmdErrSet s || ((s.txBusy && (v.getLsbD 0 || v.getLsbD 1)) || (s.ending && v.getLsbD 5 && !(v.getLsbD 6)))) := by
  simp only [cmdWrite_of_commands h, whenBit_apply cmdErrSet, whenBit_apply State.txBusy, whenBit_apply State.ending,
    rxFlush_refusal, rxPop_refusal, tagFlush_refusal, tagPop_refusal, tagEnd_refusal, txClr_refusal, txSend_cmdErrSet,
    cntClr_cmdErrSet, ite_self]
  generalize cmdErrSet s = err, s.txBusy = busy, s.ending = ending, v.getLsbD 0 = b0, v.getLsbD 1 = b1, v.getLsbD 5 = b5,
    v.getLsbD 6 = b6
  revert err busy ending b0 b1 b5 b6
  decide

/-- A CMD write with BLK_RESET raises nothing; without it, it raises CMD_ERR for the commands it refuses (40_host_access.md R188, R189). -/
theorem cmdWrite_cmdErr_iff (v : Word) {s : State} (hs : cmdErrSet s = false) :
    cmdErrSet (cmdWrite v s) = true ↔ cmdErrCause (.cmdWrite v) s = true := by
  cases h : v.getLsbD 31
  · rw [cmdWrite_cmdErrSet h, hs, cmdErrCause_cmdWrite, h, Bool.false_or, Bool.not_false, Bool.true_and]
  · rw [cmdWrite_of_blkReset h, cmdErrCause_cmdWrite, h]
    exact iff_of_false (by simp [cmdErrSet]) (by simp)

/-- No command of a CMD word lets a byte into W or sets TAG_EN. -/
theorem cmdWrite_closed (v : Word) {s : State} (hs : tagEn s = false) :
    tagEn (cmdWrite v s) = false ∧ (cmdWrite v s).win <:+ s.win := by
  have command {i : Instr} {f : State → State} (hexec : ∀ u, exec i u = .next (f u)) (hctrl : ∀ v, i ≠ .ctrlWrite v)
      (hcmd : ∀ v, i ≠ .cmdWrite v) (u : State) : tagEn u = false ∧ u.win <:+ s.win → tagEn (f u) = false ∧ (f u).win <:+ s.win :=
    fun ⟨hu, hwin⟩ => ((exec_refusesOrQuiet (hexec u) hctrl hcmd).closed hu).imp_right (·.trans hwin)
  exact cmdWrite_induct (fun u => tagEn u = false ∧ u.win <:+ s.win)
    (command (i := .blkReset) (fun _ => rfl) nofun nofun) (command (i := .rxFlush) (fun _ => rfl) nofun nofun)
    (command (i := .rxPop) (fun _ => rfl) nofun nofun) (command (i := .tagFlush) (fun _ => rfl) nofun nofun)
    (command (i := .tagPop) (fun _ => rfl) nofun nofun) (command (i := .tagEnd) (fun _ => rfl) nofun nofun)
    (command (i := .txClr) (fun _ => rfl) nofun nofun) (command (i := .txSend) (fun _ => rfl) nofun nofun)
    (command (i := .cntClr) (fun _ => rfl) nofun nofun) v s ⟨hs, List.suffix_rfl⟩

/-! ### The obligations -/

/-- CMD_ERR after any instruction, from a state without it. -/
theorem exec_cmdErr_iff {i : Instr} {s t : State} (hs : cmdErrSet s = false) (h : exec i s = .next t) :
    cmdErrSet t = true ↔ cmdErrCause i s = true := by
  by_cases hctrl : ∃ v, i = .ctrlWrite v
  · obtain ⟨v, rfl⟩ := hctrl
    cases h
    rw [ctrlWrite_cmdErrSet, hs, Bool.false_or, cmdErrCause_ctrlWrite]
  by_cases hcmd : ∃ v, i = .cmdWrite v
  · obtain ⟨v, rfl⟩ := hcmd
    cases h
    exact cmdWrite_cmdErr_iff v hs
  exact (exec_refusesOrQuiet h (not_exists.mp hctrl) (not_exists.mp hcmd)).cmdErr_iff hs

/-- A refused write or command raises CMD_ERR and does nothing else. -/
theorem exec_of_cmdErrCause {i : Instr} {s : State} (hcause : cmdErrCause i s = true) (hctrl : ∀ v, i ≠ .ctrlWrite v)
    (hcmd : ∀ v, i ≠ .cmdWrite v) : exec i s = .next (raise .cmdErr s) := by
  obtain ⟨t, ht, ⟨-, rfl⟩ | ⟨hquiet, -⟩⟩ := exec_next_refusesOrQuiet i s hctrl hcmd
  · exact ht
  · exact absurd hcause (ne_true_of_eq_false hquiet)

/-- A refused CTRL write stores bits 0, 2 and 3. -/
theorem ctrlWord_of_refused (v : Word) (i : Nat) :
    (ctrlWord (v.getLsbD 3) (v.getLsbD 2) false (v.getLsbD 0)).getLsbD i =
      (v.getLsbD i && (decide (i < 4) && decide (i ≠ 1))) := by
  rw [ctrlWord_getLsbD]
  match i with
  | 0 | 1 | 2 | 3 => simp
  | n + 4 => simp

/-- Settles O25: the causes by the split into refusals, quiet instructions, CTRL and CMD writes; the pops find nothing to take. -/
theorem cmdErrHasExactlyTheseCauses : Obligations.CmdErrHasExactlyTheseCauses := by
  refine ⟨fun i s t hs h => exec_cmdErr_iff hs h, fun i s hcause hctrl hcmd => exec_of_cmdErrCause hcause hctrl hcmd,
    fun v s hv he => ?_, fun s hempty => ?_, fun s hempty => ?_⟩
  · refine ⟨ctrlWord (v.getLsbD 3) (v.getLsbD 2) false (v.getLsbD 0), ?_, ctrlWord_of_refused v⟩
    refine congrArg Host.Outcome.next ((ctrlWrite_eq v s).trans ?_)
    simp [hv, he]
  · exact congrArg Host.Outcome.next (if_neg (ne_true_of_eq_false hempty))
  · exact congrArg Host.Outcome.next (by rw [tagPop, dropRecord, hempty, List.drop_nil, ← hempty])

/-- Settles O45: a CTRL write is refused TAG_EN while ENDING = 1, and with TAG_EN = 0 no other instruction sets it or feeds W. -/
theorem noByteEntersTheWindowWhileEnding : Obligations.NoByteEntersTheWindowWhileEnding := by
  intro i s t hending htag h _
  suffices hclosed : tagEn t = false ∧ t.win <:+ s.win from hclosed.symm
  by_cases hctrl : ∃ v, i = .ctrlWrite v
  · obtain ⟨v, rfl⟩ := hctrl
    cases h
    obtain ⟨hclosed, hwin⟩ := ctrlWrite_closed v hending
    exact ⟨hclosed, by rw [hwin]⟩
  by_cases hcmd : ∃ v, i = .cmdWrite v
  · obtain ⟨v, rfl⟩ := hcmd
    cases h
    exact cmdWrite_closed v htag
  exact (exec_refusesOrQuiet h (not_exists.mp hctrl) (not_exists.mp hcmd)).closed htag

end Sys2Proof.Machine
end

section
/-! The TX framer (41_tx_framer.md): the TX registers and TX_SEND, TX_ACCEPT and a whole transmission, and the independence from the
receive side. -/

namespace Sys2Proof.Machine

open Sys2Proof.Statements

/-! ### The TX registers and TX_SEND (R220 to R223) -/

/-- The low byte of a written word, as a number. -/
theorem setWidth_eight_eq_ofNat (v : Word) : v.setWidth 8 = BitVec.ofNat 8 (v.toNat % 256) := by
  apply BitVec.eq_of_toNat_eq
  simp

theorem ackOpcode_eq_ofNat (op : Byte) : ackOpcode op = BitVec.ofNat 8 ((op.toNat + 1) % 256) := by
  apply BitVec.eq_of_toNat_eq
  simp [ackOpcode]

/-- Settles O20: each write is refused while TX_BUSY is 1, and TX_DATA_WRITE tests TX_BUSY before the room in TXBUF. -/
theorem txRegisterWritesAndClear : Obligations.TxRegisterWritesAndClear := by
  intro v s
  rw [← setWidth_eight_eq_ofNat]
  refine ⟨?_, ?_, ?_⟩
  · rcases txOpcodeWrite_cases v s with ⟨hbusy, e⟩ | ⟨hidle, e⟩
    · exact (congrArg Host.Outcome.next e).trans (if_pos hbusy).symm
    · exact (congrArg Host.Outcome.next e).trans (if_neg (ne_true_of_eq_false hidle)).symm
  · rcases txDataWrite_cases v s with ⟨hbusy, e⟩ | ⟨hidle, hfull, e⟩ | ⟨hidle, hroom, e⟩
    · exact (congrArg Host.Outcome.next e).trans (if_pos hbusy).symm
    · rw [if_neg (ne_true_of_eq_false hidle), if_pos hfull]
      exact congrArg Host.Outcome.next e
    · rw [if_neg (ne_true_of_eq_false hidle), if_neg hroom]
      exact congrArg Host.Outcome.next e
  · rcases txClr_cases s with ⟨hbusy, e⟩ | ⟨hidle, e⟩
    · exact (congrArg Host.Outcome.next e).trans (if_pos hbusy).symm
    · exact (congrArg Host.Outcome.next e).trans (if_neg (ne_true_of_eq_false hidle)).symm

/-- Settles O21: TX_SEND is refused while TX_BUSY is 1, and latches the frame otherwise. -/
theorem txSendLatchesOneFrame : Obligations.TxSendLatchesOneFrame := by
  intro s
  rw [← ackOpcode_eq_ofNat]
  rcases txSend_cases s with ⟨hbusy, e⟩ | ⟨hidle, e⟩
  · exact (congrArg Host.Outcome.next e).trans (if_pos hbusy).symm
  · exact (congrArg Host.Outcome.next e).trans (if_neg (ne_true_of_eq_false hidle)).symm

/-! ### TX_ACCEPT and a whole transmission (R226, R227) -/

section
variable {s : State}

theorem txAccept_last (hbusy : s.txBusy = true) (hlast : s.txIdx + 1 = s.txFrame.length) :
    txAccept s = raise .txDone (endTransmit (emitByte s)) := by
  simp [txAccept, hbusy, hlast]

theorem txAccept_not_last (hbusy : s.txBusy = true) (hmore : s.txIdx + 1 ≠ s.txFrame.length) : txAccept s = emitByte s := by
  simp [txAccept, hbusy, hmore]

end

/-- Settles O26: the byte emitted is the last of TX_FRAME, or it is not. -/
theorem txAcceptSendsTheNextByte : Obligations.TxAcceptSendsTheNextByte := by
  intro s hbusy
  split
  next hlast => exact congrArg Host.Outcome.next (txAccept_last hbusy hlast)
  next hmore => exact congrArg Host.Outcome.next (txAccept_not_last hbusy hmore)

section
variable (s : State)

theorem sameRx_refl : SameRx s s := ⟨rfl, rfl, rfl, rfl, rfl, rfl, rfl, rfl, rfl, rfl⟩

theorem txAccept_sameRx : SameRx s (txAccept s) := by
  rcases txAccept_cases s with ⟨-, e⟩ | ⟨-, -, e⟩ | ⟨-, -, e⟩ <;> rw [e] <;> exact sameRx_refl s

end

/-- From `s` to `t` the bytes `f` went out and ended the transmission with TX_DONE, and the receive side stayed as it was. -/
structure Transmitted (f : List Byte) (s t : State) : Prop where
  wire : t.txwire = s.txwire ++ f
  idle : t.txBusy = false
  done : t.sticky.getLsbD 8 = true
  sameRx : SameRx s t

/-- What is left of a sequence inside it: the byte there, then the rest. -/
theorem drop_eq_byteAt_cons {f : List Byte} {i : Nat} (h : i < f.length) : f.drop i = byteAt f i :: f.drop (i + 1) := by
  rw [byteAt, List.getD_eq_getElem f _ h]
  exact List.drop_eq_getElem_cons h

/-- The TX_ACCEPT of the last byte transmits it. -/
theorem txAccept_last_transmitted {s : State} (hbusy : s.txBusy = true) (hlast : s.txIdx + 1 = s.txFrame.length) :
    Transmitted (s.txFrame.drop s.txIdx) s (txAccept s) where
  wire := by rw [txAccept_txwire hbusy, drop_eq_byteAt_cons (by omega), hlast, List.drop_length]
  idle := by rw [txAccept_last hbusy hlast]; rfl
  done := by rw [txAccept_last hbusy hlast, raise_sticky, BitVec.getLsbD_or]; exact Bool.or_true _
  sameRx := txAccept_sameRx s

/-- As many TX_ACCEPTs as bytes of TX_FRAME are left transmit those bytes. -/
theorem execAll_txAccept_rest {n : Nat} {s : State} (hbusy : s.txBusy = true) (hleft : s.txIdx + (n + 1) = s.txFrame.length) :
    ∃ t, execAll (List.replicate (n + 1) .txAccept) s = .next t ∧ Transmitted (s.txFrame.drop s.txIdx) s t := by
  induction n generalizing s with
  | zero => exact ⟨txAccept s, rfl, txAccept_last_transmitted hbusy hleft⟩
  | succ n ih =>
    have haccept : txAccept s = emitByte s := txAccept_not_last hbusy (by omega)
    obtain ⟨t, hrun, hwire, hidle, hdone, hsame⟩ := ih (s := emitByte s) hbusy (by rw [emitByte_txIdx, emitByte_txFrame]; omega)
    refine ⟨t, ?_, ?_, hidle, hdone, hsame⟩
    · rw [← hrun, ← haccept]
      rfl
    · rw [hwire, drop_eq_byteAt_cons (i := s.txIdx) (by omega)]
      exact List.append_assoc ..

/-- TX_SEND and one TX_ACCEPT per byte transmit the frame of TX_OPCODE and TXBUF. -/
theorem execAll_txSend_transmits {s : State} (hidle : s.txBusy = false) :
    ∃ t, execAll (.txSend :: List.replicate (s.txbuf.length + 8) .txAccept) s = .next t ∧
      Transmitted (frameEncode s.txOpcode s.txbuf) s t := by
  have hlength : (latchFrame s).txIdx + (s.txbuf.length + 7 + 1) = (latchFrame s).txFrame.length := by
    rw [latchFrame_txIdx, latchFrame_txFrame, frameEncode_length, frameOverhead]
    omega
  obtain ⟨t, hrun, hwire, hdone, hevent, hsame⟩ := execAll_txAccept_rest (s := latchFrame s) rfl hlength
  refine ⟨t, ?_, hwire, hdone, hevent, hsame⟩
  rw [← hrun, ← txSend_idle hidle]
  rfl

/-- Settles O27: the frame TX_SEND latched goes out byte by byte, by induction on the bytes left. -/
theorem aFrameIsTransmittedWhole : Obligations.AFrameIsTransmittedWhole := by
  intro s hidle
  obtain ⟨t, hrun, hwire, hdone, hevent, -, hrxq, hslot, -, -, -, htagq, -⟩ := execAll_txSend_transmits hidle
  exact ⟨t, hrun, hwire, hdone, hevent, hrxq.symm, hslot.symm, htagq.symm⟩

/-! ### The independence from the receive side (R228) -/

section
variable {s s' t t' : State}

/-- Two branches that agree on the TX engine, chosen by the same test. -/
theorem sameTx_ite {c c' : Prop} [Decidable c] [Decidable c'] (hc : c ↔ c') (hs : SameTx s s') (ht : SameTx t t') :
    SameTx (if c then s else t) (if c' then s' else t') := by
  by_cases h : c
  · rwa [if_pos h, if_pos (hc.mp h)]
  · rwa [if_neg h, if_neg (mt hc.mpr h)]

theorem sameTx_raise (e : Event) (h : SameTx s s') : SameTx (raise e s) (raise e s') := h

theorem sameTx_setTxbuf {p p' : List Byte} (hp : p = p') (h : SameTx s s') : SameTx (setTxbuf p s) (setTxbuf p' s') := by
  obtain ⟨hcfg, hop, hexp, -, hrest⟩ := h
  exact ⟨hcfg, hop, hexp, hp, hrest⟩

theorem sameTx_setTxOpcode (op : Byte) (h : SameTx s s') : SameTx (setTxOpcode op s) (setTxOpcode op s') := by
  obtain ⟨hcfg, -, hrest⟩ := h
  exact ⟨hcfg, rfl, hrest⟩

theorem sameTx_latchFrame (h : SameTx s s') : SameTx (latchFrame s) (latchFrame s') := by
  obtain ⟨hcfg, hop, -, hbuf, -, -, -, hwire⟩ := h
  exact ⟨hcfg, hop, congrArg ackOpcode hop, hbuf, congrArg₂ frameEncode hop hbuf, rfl, rfl, hwire⟩

theorem sameTx_emitByte (h : SameTx s s') : SameTx (emitByte s) (emitByte s') := by
  obtain ⟨hcfg, hop, hexp, hbuf, hframe, hidx, hbusy, hwire⟩ := h
  refine ⟨hcfg, hop, hexp, hbuf, hframe, congrArg (· + 1) hidx, hbusy, ?_⟩
  rw [emitByte_txwire, emitByte_txwire, hwire, hframe, hidx]

theorem sameTx_endTransmit (h : SameTx s s') : SameTx (endTransmit s) (endTransmit s') := by
  obtain ⟨hcfg, hop, hexp, hbuf, hframe, hidx, -, hwire⟩ := h
  exact ⟨hcfg, hop, hexp, hbuf, hframe, hidx, rfl, hwire⟩

end

section
variable {s s' : State} (h : SameTx s s')
include h

theorem sameTx_busy_iff : s.txBusy = true ↔ s'.txBusy = true := by
  obtain ⟨-, -, -, -, -, -, hbusy, -⟩ := h
  rw [hbusy]

theorem sameTx_txOpcodeWrite (v : Word) : SameTx (txOpcodeWrite v s) (txOpcodeWrite v s') :=
  sameTx_ite (sameTx_busy_iff h) (sameTx_raise _ h) (sameTx_setTxOpcode _ h)

theorem sameTx_txDataWrite (v : Word) : SameTx (txDataWrite v s) (txDataWrite v s') := by
  obtain ⟨hcfg, -, -, hbuf, -⟩ := id h
  exact sameTx_ite (sameTx_busy_iff h) (sameTx_raise _ h)
    (sameTx_ite (by rw [hcfg, hbuf]) (sameTx_raise _ h) (sameTx_setTxbuf (by rw [hbuf]) h))

theorem sameTx_txClr : SameTx (txClr s) (txClr s') :=
  sameTx_ite (sameTx_busy_iff h) (sameTx_raise _ h) (sameTx_setTxbuf rfl h)

theorem sameTx_txSend : SameTx (txSend s) (txSend s') :=
  sameTx_ite (sameTx_busy_iff h) (sameTx_raise _ h) (sameTx_latchFrame h)

theorem sameTx_txAccept : SameTx (txAccept s) (txAccept s') := by
  obtain ⟨-, -, -, -, hframe, hidx, hbusy, -⟩ := id h
  have hemit : SameTx (emitByte s) (emitByte s') := sameTx_emitByte h
  exact sameTx_ite (by rw [hbusy]) h (sameTx_ite (by rw [hframe, hidx]) (sameTx_raise _ (sameTx_endTransmit hemit)) hemit)

end

section
variable (s : State)

theorem txOpcodeWrite_sameRx (v : Word) : SameRx s (txOpcodeWrite v s) := by
  rcases txOpcodeWrite_cases v s with ⟨-, e⟩ | ⟨-, e⟩ <;> rw [e] <;> exact sameRx_refl s

theorem txDataWrite_sameRx (v : Word) : SameRx s (txDataWrite v s) := by
  rcases txDataWrite_cases v s with ⟨-, e⟩ | ⟨-, -, e⟩ | ⟨-, -, e⟩ <;> rw [e] <;> exact sameRx_refl s

theorem txClr_sameRx : SameRx s (txClr s) := by
  rcases txClr_cases s with ⟨-, e⟩ | ⟨-, e⟩ <;> rw [e] <;> exact sameRx_refl s

theorem txSend_sameRx : SameRx s (txSend s) := by
  rcases txSend_cases s with ⟨-, e⟩ | ⟨-, e⟩ <;> rw [e] <;> exact sameRx_refl s

end

/-- Settles O30: each TX step tests and copies what the TX engine holds, and no branch of it touches the receive side. -/
theorem transmitIsIndependentOfReceive : Obligations.TransmitIsIndependentOfReceive := by
  rintro i s s' t t' (rfl | rfl | rfl | ⟨v, rfl⟩ | ⟨v, rfl⟩) h ht ht' <;> cases ht <;> cases ht'
  · exact ⟨sameTx_txSend h, txSend_sameRx s⟩
  · exact ⟨sameTx_txClr h, txClr_sameRx s⟩
  · exact ⟨sameTx_txAccept h, txAccept_sameRx s⟩
  · exact ⟨sameTx_txOpcodeWrite h v, txOpcodeWrite_sameRx s v⟩
  · exact ⟨sameTx_txDataWrite h v, txDataWrite_sameRx s v⟩

end Sys2Proof.Machine
end

section
/-! A frame's bytes arriving alone (41_tx_framer.md R229): what `classify` makes of a frame and of a frame cut short, what received bytes
leave in RXQ, and the delineator's step. -/

namespace Sys2Proof.Machine

/-! ### What `classify` makes of a frame (42_rx_framer.md R251) -/

/-- Past SOF and a LENGTH in range, a candidate waits for its last byte and is then judged. -/
theorem classify_of_header {q : List Byte} {m l : Nat} (chk eof : Bool) (hlen : 4 ≤ q.length) (h0 : byteAt q 0 = sof0)
    (h1 : byteAt q 1 = sof1) (hl : (be16 (byteAt q 2) (byteAt q 3)).toNat = l) (hmin : frameOverhead ≤ l) (hmax : l ≤ m) :
    classify m chk eof q = if q.length < l then .wait else judge chk eof (q.take l) := by
  have hrange : ¬(l < frameOverhead ∨ m < l) := by omega
  simp only [classify, hl, h0, h1, hrange, show q.length ≠ 0 by omega, show q.length ≠ 1 by omega, show ¬ q.length < 4 by omega,
    ne_eq, not_true, if_false]

theorem judge_of_ok {f : List Byte} (chk eof : Bool) (hchk : candidateChkOk f = true) (heof : candidateEofOk f = true) :
    judge chk eof f = .accept f (candidateCalc f) true true := by
  simp [judge, hchk, heof]

section
variable (op : Byte) (p : List Byte)

theorem candidateCalc_frameEncode : candidateCalc (frameEncode op p) = checksum (checkedBytes op p) := by
  rw [candidateCalc, frameEncode_length, show p.length + frameOverhead - 3 = 5 + p.length by rw [frameOverhead]; omega,
    frameEncode_checked]

theorem byteAt_frameEncode_checksum : byteAt (frameEncode op p) ((frameEncode op p).length - 3) = checksum (checkedBytes op p) := by
  rw [frameEncode_length, show p.length + frameOverhead - 3 = 5 + p.length + 0 by rw [frameOverhead]; omega]
  exact byteAt_frameEncode_trailer op p 0

theorem candidateChkOk_frameEncode : candidateChkOk (frameEncode op p) = true := by
  rw [candidateChkOk, candidateCalc_frameEncode, byteAt_frameEncode_checksum, beq_self_eq_true]

theorem candidateEofOk_frameEncode : candidateEofOk (frameEncode op p) = true := by
  rw [candidateEofOk, frameEncode_length, show p.length + frameOverhead - 2 = 5 + p.length + 1 by rw [frameOverhead]; omega,
    show p.length + frameOverhead - 1 = 5 + p.length + 2 by rw [frameOverhead]; omega, byteAt_frameEncode_trailer,
    byteAt_frameEncode_trailer]
  rfl

end

section
variable {op : Byte} {p : List Byte} {m : Nat} (hfit : p.length ≤ maxParams) (hmax : p.length + frameOverhead ≤ m)
include hfit hmax

/-- From its LENGTH field on, a frame waits for its last byte; whole, it is judged. -/
theorem classify_take_frameEncode (chk eof : Bool) {n : Nat} (h4 : 4 ≤ n) (hn : n ≤ p.length + frameOverhead) :
    classify m chk eof ((frameEncode op p).take n) =
      if n < p.length + frameOverhead then .wait else judge chk eof ((frameEncode op p).take n) := by
  have hlen : ((frameEncode op p).take n).length = n := by
    rw [List.length_take, frameEncode_length, Nat.min_eq_left hn]
  have hfield : (be16 (byteAt ((frameEncode op p).take n) 2) (byteAt ((frameEncode op p).take n) 3)).toNat =
      p.length + frameOverhead := by
    rw [byteAt_take (by omega), byteAt_take (by omega), ← lengthField_toNat hfit]
    exact congrArg BitVec.toNat (be16_hi8_lo8 (lengthField p))
  rw [classify_of_header chk eof (by rw [hlen]; exact h4) (byteAt_take (by omega)) (byteAt_take (by omega)) hfield (by omega) hmax, hlen,
    List.take_take]
  split
  · rfl
  · rw [Nat.min_eq_right hn]

/-- A frame cut short anywhere waits. -/
theorem classify_unfinished_frameEncode (chk eof : Bool) {n : Nat} (hn : n < p.length + frameOverhead) :
    classify m chk eof ((frameEncode op p).take n) = .wait := by
  match n with
  | 0 | 1 | 2 | 3 => rfl
  | n + 4 => rw [classify_take_frameEncode hfit hmax chk eof (by omega) hn.le, if_pos hn]

/-- An encoded frame is accepted, whatever CHK_EN and EOF_EN are. -/
theorem classify_frameEncode (chk eof : Bool) :
    classify m chk eof (frameEncode op p) = .accept (frameEncode op p) (checksum (checkedBytes op p)) true true := by
  have hwhole : (frameEncode op p).take (p.length + frameOverhead) = frameEncode op p := by
    rw [← frameEncode_length op p, List.take_length]
  have hjudged := classify_take_frameEncode (op := op) hfit hmax chk eof (n := p.length + frameOverhead)
    (by rw [frameOverhead]; omega) le_rfl
  rwa [hwhole, if_neg (lt_irrefl _), judge_of_ok chk eof (candidateChkOk_frameEncode op p) (candidateEofOk_frameEncode op p),
    candidateCalc_frameEncode] at hjudged

end

/-- The slot an encoded frame fills. -/
theorem slotOf_frameEncode (op : Byte) (p : List Byte) :
    slotOf (frameEncode op p) (checksum (checkedBytes op p)) true true =
      { valid := true, opcode := op, len := BitVec.ofNat 16 (p.length + 8), pbuf := p, chk := xor8 (checkedBytes op p),
        computed := xor8 (checkedBytes op p), chkOk := true, eofOk := true, ridx := 0#16 } := by
  have hparams : slice (frameEncode op p) 5 ((frameEncode op p).length - 3) = p := by
    rw [frameEncode_length, show p.length + frameOverhead - 3 = 5 + p.length by rw [frameOverhead]; omega, frameEncode_params]
  rw [slotOf, hparams, byteAt_frameEncode_checksum, frameEncode_length]
  rfl

/-! ### Bytes received into RXQ (42_rx_framer.md R250) -/

/-- From `s` to `t` the delineator received the bytes `q` and did nothing else. -/
structure Received (q : List Byte) (s t : State) : Prop where
  cfg : t.cfg = s.cfg
  ctrl : t.ctrl = s.ctrl
  slot : t.slot = s.slot
  rxq : t.rxq = s.rxq ++ q
  cntFrames : t.cntFrames = s.cntFrames
  cntRxdrop : t.cntRxdrop = s.cntRxdrop

theorem Received.refl (s : State) : Received [] s s := ⟨rfl, rfl, rfl, (List.append_nil _).symm, rfl, rfl⟩

theorem Received.trans {q r : List Byte} {s t u : State} (hst : Received q s t) (htu : Received r t u) : Received (q ++ r) s u where
  cfg := htu.cfg.trans hst.cfg
  ctrl := htu.ctrl.trans hst.ctrl
  slot := htu.slot.trans hst.slot
  rxq := by rw [htu.rxq, hst.rxq, List.append_assoc]
  cntFrames := htu.cntFrames.trans hst.cntFrames
  cntRxdrop := htu.cntRxdrop.trans hst.cntRxdrop

/-- The tag parser's part of a received byte is not the delineator's. -/
theorem tagFeed_received (b : Byte) (s : State) : Received [] s (tagFeed b s) := by
  rcases tagFeed_cases b s with ⟨-, e⟩ | ⟨-, -, e⟩ | ⟨-, -, -, e⟩ | ⟨-, -, -, e⟩ <;> rw [e] <;>
    exact ⟨rfl, rfl, rfl, (List.append_nil _).symm, rfl, rfl⟩

theorem rxByte_received (b : Byte) {s : State} (hen : rxfEn s = true) (hroom : s.rxq.length < s.cfg.rxqDepth) :
    Received [b] s (rxByte b s) := by
  have hintake : rxIntake b s = appendRxq b s := by simp [rxIntake, hen, hroom]
  have happend : Received [b] s (rxIntake b s) := by
    rw [hintake]
    exact ⟨rfl, rfl, rfl, rfl, rfl, rfl⟩
  exact happend.trans (tagFeed_received b (rxIntake b s))

/-- While RXQ has room every byte is received. -/
theorem rxBytes_received {q : List Byte} {s : State} (hen : rxfEn s = true) (hroom : s.rxq.length + q.length ≤ s.cfg.rxqDepth) :
    Received q s (rxBytes q s) := by
  induction q generalizing s with
  | nil => exact .refl s
  | cons b q ih =>
    rw [List.length_cons] at hroom
    have hb : Received [b] s (rxByte b s) := rxByte_received b hen (by omega)
    refine hb.trans (ih ?_ ?_)
    · rw [rxfEn, hb.ctrl]
      exact hen
    · rw [hb.rxq, hb.cfg, List.length_append, List.length_singleton]
      omega

/-- RX_BYTEs one after another are `rxBytes` (30_encoding.md R145). -/
theorem execAll_rxBytes (q : List Byte) (s : State) : execAll (q.map .rxByte) s = .next (rxBytes q s) := by
  induction q generalizing s with
  | nil => rfl
  | cons b q ih => exact ih (rxByte b s)

/-! ### The delineator's step (42_rx_framer.md R253, R259) -/

section
variable {s : State}

theorem delinStep_of_wait (h : rxClass s = .wait) : delinStep s = s := by
  rcases delinStep_cases s with ⟨-, e⟩ | ⟨-, -, hclass⟩
  · exact e
  · simp [h] at hclass

/-- A candidate with both checks right is delivered without an event. -/
theorem delinStep_of_accept {f : List Byte} {c : Byte} (hen : rxfEn s = true) (hslot : s.slot.valid = false)
    (h : rxClass s = .accept f c true true) : delinStep s = deliver f c true true s := by
  simp [delinStep, hen, hslot, h, raiseChecks]

end

/-! ### The obligation -/

/-- What `classify` sees after bytes came into an empty RXQ. -/
theorem Received.rxClass_eq {q : List Byte} {s t : State} (h : Received q s t) (hempty : s.rxq = []) :
    rxClass t = classify s.cfg.maxFrame (chkEn s) (eofEn s) q := by
  rw [rxClass, chkEn, eofEn, h.cfg, h.ctrl, h.rxq, hempty, List.nil_append]
  rfl

section
variable {c : Params} (h : c.Valid)
include h

theorem rxpDepth_le_maxParams : c.rxpDepth ≤ maxParams := by
  obtain ⟨-, ⟨-, hrxp⟩, -⟩ := h
  exact hrxp

theorem maxFrame_le_rxqDepth : c.maxFrame ≤ c.rxqDepth := by
  obtain ⟨-, -, ⟨hrxq, -⟩, -⟩ := h
  exact hrxq

end

/-- Settles O35: a frame cut short waits in RXQ, and the whole frame is accepted and delivered. -/
theorem encodedFrameIsDeliveredAsItself : Obligations.EncodedFrameIsDeliveredAsItself := by
  intro s op p hvalid hen hslot hempty hroom
  have hfit : p.length ≤ maxParams := hroom.trans (rxpDepth_le_maxParams hvalid)
  have hmax : p.length + frameOverhead ≤ s.cfg.maxFrame := Nat.add_le_add_right hroom frameOverhead
  have arrive {q : List Byte} (hq : q.length ≤ p.length + frameOverhead) : Received q s (rxBytes q s) := by
    have hdepth := maxFrame_le_rxqDepth hvalid
    refine rxBytes_received hen ?_
    rw [hempty, List.length_nil]
    omega
  constructor
  · intro n hn
    have hunfinished := arrive (q := (frameEncode op p).take n) (by rw [List.length_take, frameEncode_length]; omega)
    have hwait := (hunfinished.rxClass_eq hempty).trans (classify_unfinished_frameEncode hfit hmax _ _ hn)
    exact ⟨_, execAll_rxBytes _ s, congrArg Host.Outcome.next (delinStep_of_wait hwait)⟩
  · have hframe := arrive (frameEncode_length op p).le
    have haccept := (hframe.rxClass_eq hempty).trans (classify_frameEncode hfit hmax _ _)
    have hdeliver := delinStep_of_accept (by rw [rxfEn, hframe.ctrl]; exact hen) (by rw [hframe.slot]; exact hslot) haccept
    refine ⟨_, _, execAll_rxBytes _ s, congrArg Host.Outcome.next hdeliver, ?_, ?_, ?_, ?_⟩
    · rw [deliver_slot, slotOf_frameEncode]
    · rw [deliver_rxq, hframe.rxq, hempty, List.nil_append, List.drop_length]
    · rw [deliver_cntFrames, hframe.cntFrames]
    · rw [deliver_cntRxdrop, hframe.cntRxdrop]

end Sys2Proof.Machine
end

section
/-! The RX framer's registers, received bytes and one step of the delineator (42_rx_framer.md R250, R254 to R263). -/

namespace Sys2Proof.Machine

open Sys2Proof.Statements

/-! ### Host operations on the slot and the counters (R261 to R263, 40_host_access.md R191) -/

/-- Settles O13: there is a byte left to return, or there is not. -/
theorem rxDataReadPopsOneByte : Obligations.RxDataReadPopsOneByte := by
  intro s
  rw [BitVec.ofNat_toNat]
  rcases rxDataRead_cases s with ⟨hvalid, hmore, e⟩ | ⟨hnone, e⟩
  · exact ⟨fun _ => congrArg Host.Outcome.next e, fun h => absurd ⟨hvalid, hmore⟩ h⟩
  · exact ⟨fun h => absurd h hnone, fun _ => congrArg Host.Outcome.next e⟩

/-- Settles O22: RX_POP and RX_FLUSH split on RX_VALID. -/
theorem rxPopRxFlushAndCounterClear : Obligations.RxPopRxFlushAndCounterClear := by
  intro s
  refine ⟨?_, ?_, rfl⟩
  · rcases rxPop_cases s with ⟨hvalid, e⟩ | ⟨hempty, e⟩
    · exact (congrArg Host.Outcome.next e).trans (if_pos hvalid).symm
    · exact (congrArg Host.Outcome.next e).trans (if_neg (ne_true_of_eq_false hempty)).symm
  · rcases rxFlush_cases s with ⟨hvalid, e⟩ | ⟨hempty, e⟩
    · exact (congrArg Host.Outcome.next e).trans (if_pos hvalid).symm
    · exact (congrArg Host.Outcome.next e).trans (if_neg (ne_true_of_eq_false hempty)).symm

/-! ### Received bytes (R250, 43_tag_parser.md R300, 60_exceptions.md R409) -/

/-- The delineator's part of a received byte: with RXF_EN = 1 the byte goes to RXQ, or RX_OVF is raised. -/
theorem rxIntake_eq (b : Byte) (s : State) :
    rxIntake b s = if rxfEn s then (if s.rxq.length < s.cfg.rxqDepth then appendRxq b s else raise .rxOvf s) else s := by
  rcases rxIntake_cases b s with ⟨hoff, e⟩ | ⟨hon, hroom, e⟩ | ⟨hon, hfull, e⟩ <;> rw [e]
  · rw [if_neg (ne_true_of_eq_false hoff)]
  · rw [if_pos hon, if_pos hroom]
  · rw [if_pos hon, if_neg (not_lt.mpr hfull)]

/-- Settles O31: TAG_FEED's four cases in the order of R300, and RX_BYTE as the intake before TAG_FEED. -/
theorem receiveEvents : Obligations.ReceiveEvents := by
  intro b s
  refine ⟨?_, congrArg (fun t => exec (.tagFeed b) t) (rxIntake_eq b s), rfl⟩
  rcases tagFeed_cases b s with ⟨hoff, e⟩ | ⟨hon, hskip, e⟩ | ⟨hon, hskip, hroom, e⟩ | ⟨hon, hskip, hfull, e⟩
  · exact (congrArg Host.Outcome.next e).trans (if_pos hoff).symm
  all_goals rw [if_neg (show ¬ s.ctrl.getLsbD 1 = false from ne_false_of_eq_true hon)]
  · rw [if_pos hskip]
    exact congrArg Host.Outcome.next e
  · rw [if_neg (by omega), if_pos hroom]
    exact congrArg Host.Outcome.next e
  · rw [if_neg (by omega), if_neg (not_lt.mpr hfull)]
    exact congrArg Host.Outcome.next e

/-! ### One step of the delineator (R254 to R259) -/

theorem raiseChecks_eq_checkEvents (k e : Bool) (s : State) :
    raiseChecks k e s = { s with sticky := s.sticky ||| checkEvents k e } := by
  rw [raiseChecks_eq, raiseChecks_sticky, BitVec.or_assoc]
  rfl

section
variable {s : State} (hen : rxfEn s = true) (hslot : s.slot.valid = false)
include hen hslot

theorem delinStep_of_drop_sof (h : rxClass s = .drop .sof) : delinStep s = dropRxq s := by
  simp [delinStep, hen, hslot, h]

theorem delinStep_of_drop_len (h : rxClass s = .drop .len) : delinStep s = dropRxq (raise .lenErr s) := by
  simp [delinStep, hen, hslot, h]

theorem delinStep_of_drop_cand {k e : Bool} (h : rxClass s = .drop (.cand k e)) : delinStep s = dropRxq (raiseChecks k e s) := by
  simp [delinStep, hen, hslot, h]

/-- An accepted candidate is delivered, with the events of the tests that CHK_EN or EOF_EN did not ask for. -/
theorem delinStep_of_accept_raises {f : List Byte} {c : Byte} {k e : Bool} (h : rxClass s = .accept f c k e) :
    delinStep s = deliver f c k e (raiseChecks k e s) := by
  simp [delinStep, hen, hslot, h]

end

/-- Settles O32: one case for each class on which the delineator moves. -/
theorem delineatorDropsOrDelivers : Obligations.DelineatorDropsOrDelivers := by
  intro s hen hslot
  refine ⟨fun h => ?_, fun h => ?_, fun k e h => ?_, fun f c k e h => ?_⟩
  · exact congrArg Host.Outcome.next (delinStep_of_drop_sof hen hslot h)
  · exact congrArg Host.Outcome.next (delinStep_of_drop_len hen hslot h)
  · have hstep := delinStep_of_drop_cand hen hslot h
    rw [raiseChecks_eq_checkEvents] at hstep
    exact congrArg Host.Outcome.next hstep
  · have hstep := delinStep_of_accept_raises hen hslot h
    rw [raiseChecks_eq_checkEvents] at hstep
    exact congrArg Host.Outcome.next hstep

end Sys2Proof.Machine
end

section
/-! `classify` exactly (42_rx_framer.md R251): the byte sequences each result is given to. -/

namespace Sys2Proof.Machine

open Sys2Proof.Statements

/-! ### The judgement of a complete candidate (R256, R258) -/

theorem candidateChkOk_eq_chkOf (f : List Byte) : candidateChkOk f = chkOf f := rfl

theorem candidateEofOk_eq_eofOf (f : List Byte) : candidateEofOk f = eofOf f := rfl

section
variable {chk eof : Bool} {f : List Byte}

/-- A candidate that fails a test CHK_EN or EOF_EN asks for is dropped. -/
theorem judge_of_failed (h : chk = true ∧ chkOf f = false ∨ eof = true ∧ eofOf f = false) :
    judge chk eof f = .drop (.cand (chkOf f) (eofOf f)) :=
  if_pos (by simpa [candidateChkOk_eq_chkOf, candidateEofOk_eq_eofOf] using h)

/-- A candidate that passes every test CHK_EN and EOF_EN ask for is accepted. -/
theorem judge_of_passed (hchk : chk = true → chkOf f = true) (heof : eof = true → eofOf f = true) :
    judge chk eof f = .accept f (calcOf f) (chkOf f) (eofOf f) :=
  if_neg (by simpa [candidateChkOk_eq_chkOf, candidateEofOk_eq_eofOf] using And.intro hchk heof)

end

/-! ### The five results -/

/-- What R251 asks of `q` for each result. -/
def ResultCondition (m : Nat) (chk eof : Bool) (q : List Byte) : Classified → Prop
  | .wait =>
    q = [] ∨ q = [sof0] ∨
      (2 ≤ q.length ∧ byteAt q 0 = sof0 ∧ byteAt q 1 = sof1 ∧
        (q.length < 4 ∨ (frameOverhead ≤ headLength q ∧ headLength q ≤ m ∧ q.length < headLength q)))
  | .drop .sof => q ≠ [] ∧ (byteAt q 0 ≠ sof0 ∨ (2 ≤ q.length ∧ byteAt q 1 ≠ sof1))
  | .drop .len =>
    4 ≤ q.length ∧ byteAt q 0 = sof0 ∧ byteAt q 1 = sof1 ∧ (headLength q < frameOverhead ∨ m < headLength q)
  | .drop (.cand k e) =>
    Complete m q ∧ k = chkOf (q.take (headLength q)) ∧ e = eofOf (q.take (headLength q)) ∧
      ((chk = true ∧ k = false) ∨ (eof = true ∧ e = false))
  | .accept f c k e =>
    Complete m q ∧ f = q.take (headLength q) ∧ c = calcOf f ∧ k = chkOf f ∧ e = eofOf f ∧
      (chk = true → k = true) ∧ (eof = true → e = true)

section
variable {m : Nat} {chk eof : Bool} {q : List Byte}

theorem resultCondition_judge (h : Complete m q) : ResultCondition m chk eof q (judge chk eof (q.take (headLength q))) := by
  rcases judge_cases chk eof (q.take (headLength q)) with ⟨hfailed, e⟩ | ⟨hchk, heof, e⟩ <;> rw [e]
  · exact ⟨h, rfl, rfl, hfailed⟩
  · exact ⟨h, rfl, rfl, rfl, rfl, hchk, heof⟩

theorem eq_singleton_of_byteAt {b : Byte} (hlen : q.length = 1) (h : byteAt q 0 = b) : q = [b] := by
  obtain ⟨a, rfl⟩ := List.length_eq_one_iff.mp hlen
  exact congrArg (fun x => [x]) h

/-- `classify` answers what the conditions say, along the lines of R251. -/
theorem resultCondition_classify : ResultCondition m chk eof q (classify m chk eof q) := by
  unfold classify
  split
  next h => exact .inl (List.length_eq_zero_iff.mp h)
  next hpos =>
  have hne : q ≠ [] := mt List.length_eq_zero_iff.mpr hpos
  split
  next h0 => exact ⟨hne, .inl h0⟩
  next h0 =>
  have h0 := not_not.mp h0
  split
  next h => exact .inr (.inl (eq_singleton_of_byteAt h h0))
  next hone =>
  split
  next h1 => exact ⟨hne, .inr ⟨by omega, h1⟩⟩
  next h1 =>
  have h1 := not_not.mp h1
  split
  next h => exact .inr (.inr ⟨by omega, h0, h1, .inl h⟩)
  next h4 =>
  change ResultCondition m chk eof q
    (if headLength q < frameOverhead ∨ m < headLength q then _
     else if q.length < headLength q then _ else judge chk eof (q.take (headLength q)))
  split
  next h => exact ⟨by omega, h0, h1, h⟩
  next hrange =>
  have ⟨hmin, hmax⟩ : frameOverhead ≤ headLength q ∧ headLength q ≤ m := by omega
  split
  next h => exact .inr (.inr ⟨by omega, h0, h1, .inr ⟨hmin, hmax, h⟩⟩)
  next hwhole => exact resultCondition_judge ⟨by omega, h0, h1, hmin, hmax, by omega⟩

theorem classify_of_wrong_sof (hne : q ≠ []) (h : byteAt q 0 ≠ sof0 ∨ (2 ≤ q.length ∧ byteAt q 1 ≠ sof1)) :
    classify m chk eof q = .drop .sof := by
  have hpos : q.length ≠ 0 := mt List.length_eq_zero_iff.mp hne
  rcases h with h0 | ⟨h2, h1⟩
  · simp [classify, hpos, h0]
  · simp [classify, hpos, show q.length ≠ 1 by omega, h1]

theorem classify_of_sof_only (h2 : 2 ≤ q.length) (h0 : byteAt q 0 = sof0) (h1 : byteAt q 1 = sof1) (h : q.length < 4) :
    classify m chk eof q = .wait := by
  simp [classify, show q.length ≠ 0 by omega, show q.length ≠ 1 by omega, h0, h1, h]

theorem classify_of_wrong_length (h4 : 4 ≤ q.length) (h0 : byteAt q 0 = sof0) (h1 : byteAt q 1 = sof1)
    (h : headLength q < frameOverhead ∨ m < headLength q) : classify m chk eof q = .drop .len := by
  have hrange : (be16 (byteAt q 2) (byteAt q 3)).toNat < frameOverhead ∨ m < (be16 (byteAt q 2) (byteAt q 3)).toNat := h
  simp [classify, show q.length ≠ 0 by omega, show q.length ≠ 1 by omega, show ¬ q.length < 4 by omega, h0, h1, hrange]

/-- A complete candidate is judged. -/
theorem classify_of_complete (h : Complete m q) : classify m chk eof q = judge chk eof (q.take (headLength q)) := by
  obtain ⟨h4, h0, h1, hmin, hmax, hwhole⟩ := h
  rw [classify_of_header chk eof h4 h0 h1 rfl hmin hmax]
  exact if_neg (not_lt.mpr hwhole)

theorem classify_of_resultCondition {r : Classified} (h : ResultCondition m chk eof q r) : classify m chk eof q = r := by
  match r, h with
  | .wait, .inl hnil =>
    rw [hnil]
    rfl
  | .wait, .inr (.inl hone) =>
    rw [hone]
    rfl
  | .wait, .inr (.inr ⟨h2, h0, h1, .inl hshort⟩) => exact classify_of_sof_only h2 h0 h1 hshort
  | .wait, .inr (.inr ⟨h2, h0, h1, .inr ⟨hmin, hmax, hshort⟩⟩) =>
    rcases Nat.lt_or_ge q.length 4 with h4 | h4
    · exact classify_of_sof_only h2 h0 h1 h4
    · rw [classify_of_header chk eof h4 h0 h1 rfl hmin hmax]
      exact if_pos hshort
  | .drop .sof, ⟨hne, h⟩ => exact classify_of_wrong_sof hne h
  | .drop .len, ⟨h4, h0, h1, h⟩ => exact classify_of_wrong_length h4 h0 h1 h
  | .drop (.cand k e), ⟨hcomplete, hk, he, hfailed⟩ =>
    subst hk he
    rw [classify_of_complete hcomplete, judge_of_failed hfailed]
  | .accept f c k e, ⟨hcomplete, hf, hc, hk, he, hchk, heof⟩ =>
    subst hf hc hk he
    rw [classify_of_complete hcomplete, judge_of_passed hchk heof]

theorem classify_eq_iff (r : Classified) : classify m chk eof q = r ↔ ResultCondition m chk eof q r :=
  ⟨fun h => h ▸ resultCondition_classify, classify_of_resultCondition⟩

end

/-- Settles O33: each result's condition, written out. -/
theorem classifyResultsAreExact : Obligations.ClassifyResultsAreExact := fun _ _ _ _ =>
  ⟨classify_eq_iff .wait, classify_eq_iff (.drop .sof), classify_eq_iff (.drop .len), fun k e => classify_eq_iff (.drop (.cand k e)),
    fun f c k e => classify_eq_iff (.accept f c k e)⟩

end Sys2Proof.Machine
end

section
/-! Runs of the delineator over RXQ (42_rx_framer.md R252, R260): it discards byte by byte until it delivers or holds. -/

namespace Sys2Proof.Machine

/-- DELIN_STEPs one after another are the iterates of `delinStep`. -/
theorem execAll_delinSteps (n : Nat) (s : State) : execAll (List.replicate n .delinStep) s = .next (delinStep^[n] s) := by
  induction n generalizing s with
  | zero => rfl
  | succ n ih => exact ih (delinStep s)

/-! ### Discarded bytes (R254) -/

/-- From `s` to `t` the delineator discarded the first `n` bytes of RXQ and delivered nothing. -/
structure Discarded (n : Nat) (s t : State) : Prop where
  cfg : t.cfg = s.cfg
  ctrl : t.ctrl = s.ctrl
  slot : t.slot = s.slot
  rxq : t.rxq = s.rxq.drop n
  cntFrames : t.cntFrames = s.cntFrames
  cntRxdrop : t.cntRxdrop = s.cntRxdrop + BitVec.ofNat 32 n

theorem Discarded.refl (s : State) : Discarded 0 s s := ⟨rfl, rfl, rfl, rfl, rfl, (BitVec.add_zero _).symm⟩

theorem Discarded.trans {n k : Nat} {s t u : State} (hst : Discarded n s t) (htu : Discarded k t u) : Discarded (n + k) s u where
  cfg := htu.cfg.trans hst.cfg
  ctrl := htu.ctrl.trans hst.ctrl
  slot := htu.slot.trans hst.slot
  rxq := by rw [htu.rxq, hst.rxq, List.drop_drop]
  cntFrames := htu.cntFrames.trans hst.cntFrames
  cntRxdrop := by rw [htu.cntRxdrop, hst.cntRxdrop, BitVec.ofNat_add, BitVec.add_assoc]

/-- A drop discards one byte, whatever events it raises. -/
theorem discarded_dropRxq (s : State) (events : Word) : Discarded 1 s (dropRxq { s with sticky := events }) :=
  ⟨rfl, rfl, rfl, rfl, rfl, rfl⟩

section
variable {n : Nat} {s t : State} (h : Discarded n s t)
include h

theorem Discarded.rxClass_eq : rxClass t = classify s.cfg.maxFrame (chkEn s) (eofEn s) (s.rxq.drop n) := by
  rw [rxClass, chkEn, eofEn, h.cfg, h.ctrl, h.rxq]
  rfl

theorem Discarded.rxfEn_eq : rxfEn t = rxfEn s := congrArg (fun c : Word => c.getLsbD 0) h.ctrl

theorem Discarded.slotValid_eq : t.slot.valid = s.slot.valid := congrArg Slot.valid h.slot

end

section
variable {s : State} (hen : rxfEn s = true) (hslot : s.slot.valid = false)
include hen hslot

/-- Every drop discards exactly the byte at the head of RXQ. -/
theorem delinStep_discarded {r : DropReason} (h : rxClass s = .drop r) : Discarded 1 s (delinStep s) := by
  cases r with
  | sof =>
    rw [delinStep_of_drop_sof hen hslot h]
    exact discarded_dropRxq s s.sticky
  | len =>
    rw [delinStep_of_drop_len hen hslot h]
    exact discarded_dropRxq s _
  | cand k e =>
    rw [delinStep_of_drop_cand hen hslot h, raiseChecks_eq_checkEvents]
    exact discarded_dropRxq s _

/-- Bytes at whose positions `classify` drops are discarded one by one. -/
theorem delinSteps_discarded {n : Nat}
    (h : ∀ k, k < n → ∃ r, classify s.cfg.maxFrame (chkEn s) (eofEn s) (s.rxq.drop k) = .drop r) :
    Discarded n s (delinStep^[n] s) := by
  induction n with
  | zero => exact .refl s
  | succ n ih =>
    have hn := ih fun k hk => h k (Nat.lt_succ_of_lt hk)
    obtain ⟨r, hr⟩ := h n (Nat.lt_succ_self n)
    rw [Function.iterate_succ_apply']
    exact hn.trans (delinStep_discarded (hn.rxfEn_eq.trans hen) (hn.slotValid_eq.trans hslot) (hn.rxClass_eq.trans hr))

end

/-! ### `try_parse` (R252) -/

/-- The state `t` holds what `try_parse` answered for the RXQ of `s`. -/
def Answered (s t : State) : Parsed → Prop
  | .frame f n =>
    t.rxq = s.rxq.drop n ∧ t.slot.valid = true ∧ t.slot.opcode = byteAt f 4 ∧
      t.slot.pbuf = (f.drop 5).take (f.length - frameOverhead) ∧ t.cntFrames = s.cntFrames + 1#32
  | .incomplete n => t.rxq = s.rxq.drop n ∧ t.slot = s.slot ∧ t.cntFrames = s.cntFrames
  | .notFound n => t.rxq = s.rxq.drop n ∧ t.slot = s.slot ∧ t.cntFrames = s.cntFrames

theorem delinStep_of_slot_valid {s : State} (h : s.slot.valid = true) : delinStep s = s := by
  simp [delinStep, h]

/-- Once the slot holds a frame, the steps left over hold. -/
theorem delinSteps_deliver (f : List Byte) (c : Byte) (k e : Bool) (s : State) (n : Nat) :
    delinStep^[n] (deliver f c k e s) = deliver f c k e s :=
  Function.iterate_fixed (delinStep_of_slot_valid rfl) n

theorem Discarded.answered_deliver {n : Nat} {s t : State} (h : Discarded n s t) (f : List Byte) (c : Byte) (k e : Bool) :
    Answered s (deliver f c k e (raiseChecks k e t)) (.frame f (n + f.length)) := by
  rw [raiseChecks_eq_checkEvents]
  refine ⟨?_, rfl, rfl, rfl, ?_⟩
  · rw [deliver_rxq, h.rxq, List.drop_drop]
  · rw [deliver_cntFrames, h.cntFrames]

/-- With `n` bytes discarded and `q` left in RXQ, the delineator computes `try_parse` from index `n` on: each byte of `q` takes at most one
step, and one more delivers or holds. -/
theorem delinSteps_answered {s : State} (hen : rxfEn s = true) (hslot : s.slot.valid = false) (q : List Byte) {n : Nat} {t : State}
    (h : Discarded n s t) (hq : t.rxq = q) :
    Answered s (delinStep^[q.length + 1] t) (tryParseFrom s.cfg.maxFrame (chkEn s) (eofEn s) n q) := by
  induction q generalizing n t with
  | nil =>
    have hwait : rxClass t = .wait := by
      rw [rxClass, hq]
      rfl
    rw [Function.iterate_fixed (delinStep_of_wait hwait)]
    exact ⟨h.rxq, h.slot, h.cntFrames⟩
  | cons b q ih =>
    have hen' := h.rxfEn_eq.trans hen
    have hslot' := h.slotValid_eq.trans hslot
    have hclass : rxClass t = classify s.cfg.maxFrame (chkEn s) (eofEn s) (b :: q) := by
      rw [h.rxClass_eq, ← h.rxq, hq]
    unfold tryParseFrom
    cases hc : classify s.cfg.maxFrame (chkEn s) (eofEn s) (b :: q) with
    | wait =>
      rw [Function.iterate_fixed (delinStep_of_wait (hclass.trans hc))]
      dsimp only
      split <;> exact ⟨h.rxq, h.slot, h.cntFrames⟩
    | drop r =>
      have hdrop := delinStep_discarded hen' hslot' (hclass.trans hc)
      exact ih (h.trans hdrop) (by rw [hdrop.rxq, hq]; rfl)
    | accept f c k e =>
      rw [Function.iterate_succ_apply, delinStep_of_accept_raises hen' hslot' (hclass.trans hc), delinSteps_deliver]
      exact h.answered_deliver f c k e

/-- Settles O34: `delinSteps_answered` from the first byte of RXQ on. -/
theorem delineatorComputesTryParse : Obligations.DelineatorComputesTryParse := by
  intro s hen hslot
  refine ⟨_, execAll_delinSteps _ s, ?_⟩
  have h : Answered s _ (tryParse s.cfg.maxFrame (s.ctrl.getLsbD 2) (s.ctrl.getLsbD 3) s.rxq) :=
    delinSteps_answered hen hslot s.rxq (.refl s) rfl
  cases hp : tryParse s.cfg.maxFrame (s.ctrl.getLsbD 2) (s.ctrl.getLsbD 3) s.rxq with
  | frame f n | incomplete n | notFound n =>
    rw [hp] at h
    exact h

/-! ### Noise before a frame (R260) -/

/-- Settles O36: the noise is discarded byte by byte, and the frame behind it accepted and delivered. -/
theorem noiseBeforeAFrameIsDiscarded : Obligations.NoiseBeforeAFrameIsDiscarded := by
  intro s g op p hvalid hen hslot hroom hrxq hnoise
  have hfit : p.length ≤ maxParams := hroom.trans (rxpDepth_le_maxParams hvalid)
  have hmax : p.length + frameOverhead ≤ s.cfg.maxFrame := Nat.add_le_add_right hroom frameOverhead
  have hgone := delinSteps_discarded hen hslot hnoise
  have hframe : s.rxq.drop g.length = frameEncode op p := by rw [hrxq, List.drop_left]
  have haccept := hgone.rxClass_eq
  rw [hframe, classify_frameEncode hfit hmax] at haccept
  have hdeliver := delinStep_of_accept (hgone.rxfEn_eq.trans hen) (hgone.slotValid_eq.trans hslot) haccept
  refine ⟨_, execAll_delinSteps _ s, ?_⟩
  rw [Function.iterate_succ_apply', hdeliver, deliver_slot, slotOf_frameEncode]
  refine ⟨rfl, rfl, rfl, rfl, rfl, ?_, hgone.cntRxdrop, ?_⟩
  · rw [deliver_rxq, hgone.rxq, hframe, List.drop_length]
  · rw [deliver_cntFrames, hgone.cntFrames]

end Sys2Proof.Machine
end

section
/-! `tclass` exactly (43_tag_parser.md R302): the windows each result is given to, that more bytes change no result but Wait, and that a
full window never waits. -/

namespace Sys2Proof.Machine

open Sys2Proof.Statements

/-! ### The five kinds of window -/

/-- The scan position holds no SOF (43_tag_parser.md R304). -/
def WrongSof (w : List Byte) : Prop := w ≠ [] ∧ (byteAt w 0 ≠ sof0 ∨ (2 ≤ w.length ∧ byteAt w 1 ≠ sof1))

/-- The window starts with A5 5A and its record's bytes up to the antenna byte are all there (43_tag_parser.md R302). -/
def WholeRecord (w : List Byte) : Prop := byteAt w 0 = sof0 ∧ byteAt w 1 = sof1 ∧ recordNeed (epcLength (pcOf w)) ≤ w.length

theorem window_cases (w : List Byte) : w = [] ∨ WrongSof w ∨ w = [sof0] ∨ ShortRecord w ∨ WholeRecord w := by
  rcases eq_or_ne w [] with hnil | hne
  · exact .inl hnil
  by_cases h0 : byteAt w 0 = sof0
  case neg => exact .inr (.inl ⟨hne, .inl h0⟩)
  by_cases hone : w.length = 1
  · exact .inr (.inr (.inl (eq_singleton_of_byteAt hone h0)))
  have h2 : 2 ≤ w.length := by
    have hpos := List.length_pos_of_ne_nil hne
    omega
  by_cases h1 : byteAt w 1 = sof1
  case neg => exact .inr (.inl ⟨hne, .inr ⟨h2, h1⟩⟩)
  rcases Nat.lt_or_ge w.length (recordNeed (epcLength (pcOf w))) with hshort | hwhole
  · exact .inr (.inr (.inr (.inl ⟨h2, h0, h1, .inr hshort⟩)))
  · exact .inr (.inr (.inr (.inr ⟨h0, h1, hwhole⟩)))

section
variable {w : List Byte}

theorem tclass_of_wrongSof (h : WrongSof w) (e : Bool) : tclass w e = .skip1 := by
  obtain ⟨hne, hsof⟩ := h
  have hpos : w.length ≠ 0 := mt List.length_eq_zero_iff.mp hne
  rcases hsof with h0 | ⟨h2, h1⟩
  · simp [tclass, hpos, h0]
  · simp [tclass, hpos, show w.length ≠ 1 by omega, h1]

theorem tclass_lone_sof (e : Bool) : tclass [sof0] e = if e then .skip1 else .wait := rfl

theorem tclass_of_shortRecord (h : ShortRecord w) (e : Bool) : tclass w e = shortCandidate e := by
  obtain ⟨h2, h0, h1, hshort⟩ := h
  have h0 : byteAt w 0 = sof0 := h0
  have h1 : byteAt w 1 = sof1 := h1
  have hneed : w.length < recordNeed (epcLength (be16 (byteAt w 5) (byteAt w 6))) := by
    change w.length < 10 + epcLength (pcOf w)
    omega
  simp [tclass, show w.length ≠ 0 by omega, show w.length ≠ 1 by omega, h0, h1, hneed]

theorem tclass_of_wholeRecord (h : WholeRecord w) (e : Bool) : tclass w e = .record (recordAt w (pcOf w)) := by
  obtain ⟨h0, h1, hwhole⟩ := h
  have hneed : ¬ w.length < recordNeed (epcLength (be16 (byteAt w 5) (byteAt w 6))) := not_lt.mpr hwhole
  have h10 : 10 ≤ w.length := by
    rw [recordNeed] at hwhole
    omega
  simp only [tclass, h0, h1, show w.length ≠ 0 by omega, show w.length ≠ 1 by omega, show ¬ w.length < 7 by omega, hneed, ne_eq,
    not_true, if_false]
  rfl

end

/-! ### The five results -/

/-- The record of a window, its fields at their offsets (43_tag_parser.md R302). -/
theorem recordAt_pcOf (w : List Byte) :
    recordAt w (pcOf w) =
      { pc := pcOf w, epcLen := epcLength (pcOf w), epc := (w.drop 7).take (epcLength (pcOf w)),
        rssi := be16 (w.getD (7 + epcLength (pcOf w)) 0#8) (w.getD (8 + epcLength (pcOf w)) 0#8),
        ant := w.getD (9 + epcLength (pcOf w)) 0#8 } := by
  rw [recordAt, slice, Nat.add_sub_cancel_left]
  rfl

/-- What R302 asks of `w` for each result. -/
def WindowCondition (w : List Byte) (e : Bool) : TagClass → Prop
  | .idle => w = []
  | .skip1 => w ≠ [] ∧ (byteAt w 0 ≠ sof0 ∨ (w = [sof0] ∧ e = true) ∨ (2 ≤ w.length ∧ byteAt w 1 ≠ sof1))
  | .wait => e = false ∧ (w = [sof0] ∨ ShortRecord w)
  | .underrun => e = true ∧ ShortRecord w
  | .record r => byteAt w 0 = sof0 ∧ byteAt w 1 = sof1 ∧ 10 + epcLength (pcOf w) ≤ w.length ∧ r = recordAt w (pcOf w)

section
variable {w : List Byte} {e : Bool}

theorem windowCondition_tclass : WindowCondition w e (tclass w e) := by
  rcases window_cases w with rfl | hwrong | rfl | hshort | hwhole
  · rfl
  · obtain ⟨hne, hsof⟩ := hwrong
    rw [tclass_of_wrongSof ⟨hne, hsof⟩]
    exact ⟨hne, hsof.imp_right .inr⟩
  · cases e
    · exact ⟨rfl, .inl rfl⟩
    · exact ⟨by simp, .inr (.inl ⟨rfl, rfl⟩)⟩
  · rw [tclass_of_shortRecord hshort]
    cases e
    · exact ⟨rfl, .inr hshort⟩
    · exact ⟨rfl, hshort⟩
  · rw [tclass_of_wholeRecord hwhole]
    obtain ⟨h0, h1, hneed⟩ := hwhole
    exact ⟨h0, h1, hneed, rfl⟩

theorem tclass_of_windowCondition {r : TagClass} (h : WindowCondition w e r) : tclass w e = r := by
  match r, h with
  | .idle, hnil => exact (tclass_eq_idle_iff w e).mpr hnil
  | .skip1, ⟨hne, .inl h0⟩ => exact tclass_of_wrongSof ⟨hne, .inl h0⟩ e
  | .skip1, ⟨_, .inr (.inl ⟨hone, hend⟩)⟩ => rw [hone, hend, tclass_lone_sof, if_pos rfl]
  | .skip1, ⟨hne, .inr (.inr h1)⟩ => exact tclass_of_wrongSof ⟨hne, .inr h1⟩ e
  | .wait, ⟨hmore, .inl hone⟩ => rw [hone, hmore, tclass_lone_sof, if_neg Bool.false_ne_true]
  | .wait, ⟨hmore, .inr hshort⟩ => rw [tclass_of_shortRecord hshort, hmore, shortCandidate, if_neg Bool.false_ne_true]
  | .underrun, ⟨hend, hshort⟩ => rw [tclass_of_shortRecord hshort, hend, shortCandidate, if_pos rfl]
  | .record r, ⟨h0, h1, hneed, hr⟩ => rw [tclass_of_wholeRecord ⟨h0, h1, hneed⟩, hr]

theorem tclass_eq_iff (r : TagClass) : tclass w e = r ↔ WindowCondition w e r :=
  ⟨fun h => h ▸ windowCondition_tclass, tclass_of_windowCondition⟩

end

/-- Settles O41: each result's condition, written out. -/
theorem tagClassResultsAreExact : Obligations.TagClassResultsAreExact := by
  intro w e
  refine ⟨tclass_eq_iff .idle, tclass_eq_iff .skip1, tclass_eq_iff .wait, tclass_eq_iff .underrun, fun r => ?_⟩
  rw [← recordAt_pcOf]
  exact tclass_eq_iff (.record r)

/-! ### More bytes (R302) -/

theorem slice_append_left {s : List Byte} {a b : Nat} (t : List Byte) (h : b ≤ s.length) : slice (s ++ t) a b = slice s a b := by
  rw [slice, slice, ← List.drop_take, ← List.drop_take, List.take_append_of_le_length h]

section
variable {w : List Byte} (x : List Byte)

theorem WrongSof.append (h : WrongSof w) : WrongSof (w ++ x) := by
  obtain ⟨hne, hsof⟩ := h
  refine ⟨List.append_ne_nil_of_left_ne_nil hne x, ?_⟩
  rcases hsof with h0 | ⟨h2, h1⟩
  · exact .inl (by rwa [byteAt_append_left x (List.length_pos_of_ne_nil hne)])
  · exact .inr ⟨by rw [List.length_append]; omega, by rwa [byteAt_append_left x h2]⟩

/-- Every byte a whole record reads is in the window already. -/
theorem WholeRecord.append (h : WholeRecord w) :
    WholeRecord (w ++ x) ∧ recordAt (w ++ x) (pcOf (w ++ x)) = recordAt w (pcOf w) := by
  obtain ⟨h0, h1, hneed⟩ := h
  have hlen : 10 + epcLength (pcOf w) ≤ w.length := hneed
  have hbyte : ∀ i, i < 10 + epcLength (pcOf w) → byteAt (w ++ x) i = byteAt w i := fun i hi =>
    byteAt_append_left x (by omega)
  have hpc : pcOf (w ++ x) = pcOf w := congrArg₂ be16 (hbyte 5 (by omega)) (hbyte 6 (by omega))
  refine ⟨⟨(hbyte 0 (by omega)).trans h0, (hbyte 1 (by omega)).trans h1, ?_⟩, ?_⟩
  · rw [hpc, List.length_append]
    omega
  · rw [hpc, recordAt, slice_append_left x (by omega), hbyte _ (by omega), hbyte _ (by omega), hbyte _ (by omega)]
    rfl

/-- A whole record is found whatever bytes follow it, the end of the burst known or not. -/
theorem WholeRecord.tclass_append (h : WholeRecord w) (e last : Bool) : tclass (w ++ x) e = tclass w last := by
  obtain ⟨hwhole, hrecord⟩ := h.append x
  rw [tclass_of_wholeRecord hwhole, tclass_of_wholeRecord h, hrecord]

end

/-- Settles O42: a window with a wrong SOF or a whole record keeps it; the others wait. -/
theorem tagClassIsMonotone : Obligations.TagClassIsMonotone := by
  intro w x hne hwait e
  rcases window_cases w with hnil | hwrong | hone | hshort | hwhole
  · exact absurd hnil hne
  · rw [tclass_of_wrongSof (hwrong.append x), tclass_of_wrongSof hwrong]
  · exact absurd ((tclass_eq_iff .wait).mpr ⟨rfl, .inl hone⟩) hwait
  · exact absurd ((tclass_eq_iff .wait).mpr ⟨rfl, .inr hshort⟩) hwait
  · exact hwhole.tclass_append x e false

/-! ### A full window (R308) -/

theorem epcLength_le (pc : Half) : epcLength pc ≤ 62 := by
  obtain ⟨-, -, hle, -⟩ := epcLengthReadsTheTopFiveBits pc pc
  exact hle

/-- Settles O43: a window that waits holds one byte, or less than the 72 bytes of the longest record. -/
theorem fullWindowNeverWaits : Obligations.FullWindowNeverWaits := by
  intro w e hfull hwait
  obtain ⟨-, hone | ⟨-, -, -, hshort⟩⟩ := (tclass_eq_iff .wait).mp hwait
  · simp [hone] at hfull
  · have hle := epcLength_le (pcOf w)
    omega

end Sys2Proof.Machine
end

section
/-! The tag parser's operations (43_tag_parser.md R304 to R307, R309 to R312): one TAG_STEP on each result, the record it pushes and the
span it skips, and the host's TAG_END, TAG_POP and TAG_FLUSH. -/

namespace Sys2Proof.Machine

open Sys2Proof.Statements

/-! ### Host operations (R310 to R312) -/

/-- Settles O23: TAG_END splits on ENDING; the other two are unconditional. -/
theorem tagEndTagPopAndTagFlush : Obligations.TagEndTagPopAndTagFlush := by
  intro s
  refine ⟨?_, ?_, rfl⟩
  · rcases tagEnd_cases s with ⟨hrunning, e⟩ | ⟨hidle, e⟩
    · exact (congrArg Host.Outcome.next e).trans (if_pos hrunning).symm
    · exact (congrArg Host.Outcome.next e).trans (if_neg (ne_true_of_eq_false hidle)).symm
  · rw [← List.drop_one]
    rfl

/-! ### TAG_STEP on Skip1, on Underrun and at the end of the burst (R304, R306, R309) -/

section
variable {s : State}

theorem tagStep_of_skip1 (h : tclass s.win s.ending = .skip1) : tagStep s = dropWin s := by
  rw [tagStep, h]

theorem tagStep_of_underrun (h : tclass s.win s.ending = .underrun) : tagStep s = dropWin (raise .tagUnderrun s) := by
  rw [tagStep, h]

theorem tagStep_of_record {r : TagRecord} (h : tclass s.win s.ending = .record r) : tagStep s = tagStepRecord r s := by
  rw [tagStep, h]

theorem tagStepRecord_of_room (r : TagRecord) (hroom : s.tagq.length < s.cfg.tagqDepth) : tagStepRecord r s = emitRecord r s :=
  if_pos hroom

theorem tagRecordStep_of_record {r : TagRecord} (h : tclass s.win s.ending = .record r) : tagRecordStep r s = tagStepRecord r s :=
  if_pos h

theorem tagStep_at_end (hend : s.ending = true) (hwin : s.win = []) : tagStep s = raise .tagDone (endBurst s) := by
  rw [tagStep, (tclass_eq_idle_iff s.win s.ending).mpr hwin, hend]
  rfl

end

/-- Settles O40: one equation of TAG_STEP for each case. -/
theorem tagStepSkipsUnderrunsAndCompletes : Obligations.TagStepSkipsUnderrunsAndCompletes := fun _ =>
  ⟨fun h => congrArg Host.Outcome.next (tagStep_of_skip1 h), fun h => congrArg Host.Outcome.next (tagStep_of_underrun h),
    fun ⟨hend, hwin⟩ => congrArg Host.Outcome.next (tagStep_at_end hend hwin)⟩

/-! ### TAG_STEP on a record (R305, R307) -/

/-- The record the decoder reads from a whole span is the one the parser finds there. -/
theorem tclass_of_decodeTagSpan {w : List Byte} {pc rssi : Half} {epc : List Byte} {ant : Byte}
    (h : decodeTagSpan w = .ok (.tagRecord pc epc rssi ant)) (e : Bool) :
    tclass w e = .record { pc := pc, epcLen := epcLength pc, epc := epc, rssi := rssi, ant := ant } := by
  unfold decodeTagSpan at h
  split at h
  next => cases h
  next =>
  split at h
  next => cases h
  next hsof =>
  obtain ⟨h0, h1⟩ := not_or.mp hsof
  dsimp only at h
  split at h
  next => cases h
  next hspan =>
  have hwhole : WholeRecord w := by
    refine ⟨not_not.mp h0, not_not.mp h1, ?_⟩
    rw [not_not.mp hspan]
    exact Nat.add_le_add_right (by decide) _
  rw [tclass_of_wholeRecord hwhole]
  cases h
  rfl

section
variable (a b c : Byte) (pc rssi : Half) (ant : Byte) {epc : List Byte} (hepc : epc.length = epcLength pc)
include hepc

theorem recordBytes_length :
    ([sof0, sof1, a, b, c, hi8 pc, lo8 pc] ++ (epc ++ [hi8 rssi, lo8 rssi, ant])).length = recordNeed (epcLength pc) := by
  rw [recordNeed, ← hepc]
  simp only [List.length_append, List.length_cons, List.length_nil]
  omega

theorem wholeRecord_recordBytes : WholeRecord ([sof0, sof1, a, b, c, hi8 pc, lo8 pc] ++ (epc ++ [hi8 rssi, lo8 rssi, ant])) := by
  have hpc : pcOf ([sof0, sof1, a, b, c, hi8 pc, lo8 pc] ++ (epc ++ [hi8 rssi, lo8 rssi, ant])) = pc := be16_hi8_lo8 pc
  exact ⟨rfl, rfl, by rw [hpc, recordBytes_length a b c pc rssi ant hepc]⟩

/-- The bytes of a record up to its antenna byte decide it: as with a trailer behind them, so with any bytes `x` (R302, R313). -/
theorem tclass_recordBytes (x : List Byte) (e : Bool) :
    tclass ([sof0, sof1, a, b, c, hi8 pc, lo8 pc] ++ (epc ++ [hi8 rssi, lo8 rssi, ant]) ++ x) e =
      .record { pc := pc, epcLen := epcLength pc, epc := epc, rssi := rssi, ant := ant } := by
  have hwhole := wholeRecord_recordBytes a b c pc rssi ant hepc
  rw [hwhole.tclass_append x e e, ← hwhole.tclass_append [eof0, eof0, eof0] e e]
  refine tclass_of_decodeTagSpan ?_ e
  rw [List.append_assoc, List.append_assoc]
  exact decodeTagSpan_record a b c pc rssi ant hepc rfl

end

theorem drop_min_length {α : Type} (l : List α) (n : Nat) : l.drop (min l.length n) = l.drop n := by
  rcases Nat.le_total l.length n with h | h
  · rw [Nat.min_eq_left h, List.drop_length, List.drop_eq_nil_of_le h]
  · rw [Nat.min_eq_right h]

/-- A record's span leaves the window as far as it is there; the rest of it is owed by SKIP (R307). -/
theorem emitRecord_eq_of_win {s : State} {r : TagRecord} {w x : List Byte} (hwin : s.win = w ++ x)
    (hw : w.length = recordNeed r.epcLen) :
    emitRecord r s =
      { s with tagq := s.tagq ++ [r], cntTags := s.cntTags + 1#32, win := x.drop 3, skip := 3 - x.length } := by
  have hspan : recordSpan r.epcLen = w.length + 3 := by
    rw [hw, recordSpan, recordNeed]
    omega
  have hlen : s.win.length = w.length + x.length := by rw [hwin, List.length_append]
  have hdrop : s.win.drop (min s.win.length (w.length + 3)) = x.drop 3 := by
    rw [drop_min_length, hwin, List.drop_length_add_append]
  have hskip : w.length + 3 - min s.win.length (w.length + 3) = 3 - x.length := by omega
  rw [emitRecord, hspan, hdrop, hskip]

/-- Settles O39: the window decides the record, and TAGQ has room for it. -/
theorem tagRecordIsEmitted : Obligations.TagRecordIsEmitted := by
  intro s a b c pc epc rssi ant x hwin hepc hroom
  rw [List.append_assoc _ epc] at hwin
  have hclass := (congrArg (tclass · s.ending) hwin).trans (tclass_recordBytes a b c pc rssi ant hepc x s.ending)
  have hemit := tagStepRecord_of_room { pc := pc, epcLen := epcLength pc, epc := epc, rssi := rssi, ant := ant } hroom
  refine ⟨_, ?_, congrArg Host.Outcome.next ((tagStep_of_record hclass).trans hemit),
    congrArg Host.Outcome.next ((tagRecordStep_of_record hclass).trans hemit)⟩
  rw [hepc]
  exact emitRecord_eq_of_win hwin (recordBytes_length a b c pc rssi ant hepc)

end Sys2Proof.Machine
end

section
/-! A burst without pops computes `decode` (43_tag_parser.md R314, R315). The invariant is R315's proof idea: with the bytes `y` still to
come, the records queued, then those `decode` finds from the scan position on, stay the same at every step. -/

namespace Sys2Proof.Machine

open Sys2Proof.Statements

/-! ### `decode` (R314) -/

theorem recordSpan_pos (e : Nat) : 0 < recordSpan e := by
  rw [recordSpan]
  omega

/-- Turns past the length of the buffer find nothing. -/
theorem tagDecodeLoop_of_length_le {n m : Nat} {b : List Byte} (hn : b.length ≤ n) (hm : b.length ≤ m) :
    tagDecodeLoop n b = tagDecodeLoop m b := by
  induction n generalizing m b with
  | zero =>
    cases List.length_eq_zero_iff.mp (Nat.le_zero.mp hn)
    cases m <;> rfl
  | succ n ih =>
    cases m with
    | zero =>
      cases List.length_eq_zero_iff.mp (Nat.le_zero.mp hm)
      rfl
    | succ m =>
      have hdrop : ∀ k, 0 < k → tagDecodeLoop n (b.drop k) = tagDecodeLoop m (b.drop k) := fun k hk =>
        ih (by rw [List.length_drop]; omega) (by rw [List.length_drop]; omega)
      simp only [tagDecodeLoop, hdrop 1 Nat.one_pos, hdrop _ (recordSpan_pos _)]

@[simp] theorem tagDecode_nil : tagDecode [] = [] := rfl

section
variable {b : List Byte}

/-- The first turn of `decode` on a buffer that is not empty leaves turns enough for what it leaves of the buffer. -/
theorem tagDecode_turn (h : b ≠ []) :
    ∃ n, tagDecode b = tagDecodeLoop (n + 1) b ∧ ∀ k, 0 < k → tagDecodeLoop n (b.drop k) = tagDecode (b.drop k) := by
  obtain ⟨n, hn⟩ := Nat.exists_eq_succ_of_ne_zero (mt List.length_eq_zero_iff.mp h)
  refine ⟨n, by rw [tagDecode, hn], fun k hk => tagDecodeLoop_of_length_le ?_ le_rfl⟩
  rw [List.length_drop]
  omega

theorem ne_nil_of_tclass {e : Bool} {c : TagClass} (h : tclass b e = c) (hc : c ≠ .idle) : b ≠ [] := fun hb =>
  hc (h.symm.trans ((tclass_eq_idle_iff b e).mpr hb))

theorem tagDecode_of_skip1 (h : tclass b true = .skip1) : tagDecode b = tagDecode (b.drop 1) := by
  obtain ⟨n, hturn, hrest⟩ := tagDecode_turn (ne_nil_of_tclass h nofun)
  rw [hturn, ← hrest 1 Nat.one_pos, tagDecodeLoop, h]

theorem tagDecode_of_underrun (h : tclass b true = .underrun) : tagDecode b = tagDecode (b.drop 1) := by
  obtain ⟨n, hturn, hrest⟩ := tagDecode_turn (ne_nil_of_tclass h nofun)
  rw [hturn, ← hrest 1 Nat.one_pos, tagDecodeLoop, h]

theorem tagDecode_of_record {r : TagRecord} (h : tclass b true = .record r) :
    tagDecode b = r :: tagDecode (b.drop (recordSpan r.epcLen)) := by
  obtain ⟨n, hturn, hrest⟩ := tagDecode_turn (ne_nil_of_tclass h nofun)
  rw [hturn, ← hrest _ (recordSpan_pos _), tagDecodeLoop, h]

end

/-- A result other than Idle and Wait is the one `decode` gets on all of the bytes, whether more follow the window or it is the last
(43_tag_parser.md R315). -/
theorem tclass_whole_buffer {w y : List Byte} {e : Bool} {c : TagClass} (h : tclass w e = c) (hidle : c ≠ .idle) (hwait : c ≠ .wait)
    (hend : e = true → y = []) : tclass (w ++ y) true = c := by
  cases e
  · exact (tagClassIsMonotone w y (ne_nil_of_tclass h hidle) (h.trans_ne hwait) true).trans h
  · rw [hend rfl, List.append_nil, h]

/-! ### SKIP (10_state.md R60) -/

/-- Every update keeps SKIP at 0 while bytes are in the window, with no other invariant needed. -/
theorem Update.skipConsistent {s t : State} (h : Update s t) (hs : SkipConsistent s) : SkipConsistent t := by
  have ⟨hle, hempty⟩ := hs
  cases h with
  | takeTrailerByte => exact ⟨by rw [takeTrailerByte_skip]; omega, fun hk => hempty (by rw [takeTrailerByte_skip] at hk; omega)⟩
  | appendWin b _ _ hskip _ => exact ⟨hle, fun hk => absurd hskip hk.ne'⟩
  | dropWin => exact ⟨hle, fun hk => by rw [dropWin_win, hempty hk, List.drop_nil]⟩
  | emitRecord r _ hclass _ =>
    obtain ⟨-, hspan⟩ := record_of_tclass hclass
    refine ⟨by rw [emitRecord_skip]; omega, fun hk => ?_⟩
    rw [emitRecord_skip] at hk
    exact List.drop_eq_nil_of_le (by omega)
  | endBurst | tagFlush => exact ⟨Nat.zero_le 3, fun hk => absurd rfl hk.ne'⟩
  | _ => exact hs

theorem Updates.skipConsistent {s t : State} (h : Updates s t) (hs : SkipConsistent s) : SkipConsistent t :=
  h.keeps Update.skipConsistent hs

/-- A sticky bit that is 0 after a run of updates was 0 before it. -/
theorem Updates.sticky_clear_before {k : Nat} {s t : State} (h : Updates s t) (ht : t.sticky.getLsbD k = false) :
    s.sticky.getLsbD k = false :=
  Bool.eq_false_of_not_eq_true fun hs =>
    ne_true_of_eq_false ht (h.keeps (P := fun u => u.sticky.getLsbD k = true) Update.keeps_sticky hs)

theorem skip_eq_zero_of_win {s : State} (h : SkipConsistent s) (hwin : s.win ≠ []) : s.skip = 0 := by
  obtain ⟨-, hempty⟩ := h
  exact Nat.eq_zero_of_not_pos fun hk => hwin (hempty hk)

/-! ### The records of a burst (R315) -/

/-- The records of the burst, should exactly the bytes `y` still come: those in TAGQ, then what `decode` finds from the scan position
on. -/
def burstRecords (s : State) (y : List Byte) : List TagRecord := s.tagq ++ tagDecode ((s.win ++ y).drop s.skip)

theorem burstRecords_of_skip {s : State} {y : List Byte} (h : s.skip = 0) :
    burstRecords s y = s.tagq ++ tagDecode (s.win ++ y) := by
  rw [burstRecords, h, List.drop_zero]

/-- Taking a byte off the window moves the scan position by one. -/
theorem burstRecords_dropWin {s u : State} {y : List Byte} (hu : u.tagq = s.tagq ∧ u.win = s.win ∧ u.skip = s.skip)
    (hskip : s.skip = 0) (hwin : s.win ≠ []) (h : tagDecode (s.win ++ y) = tagDecode ((s.win ++ y).drop 1)) :
    burstRecords (dropWin u) y = burstRecords s y := by
  obtain ⟨htagq, hw, hk⟩ := hu
  rw [burstRecords_of_skip hskip, burstRecords_of_skip (by rw [dropWin_skip, hk, hskip]), dropWin_tagq, dropWin_win, htagq, hw, h,
    List.drop_append_of_le_length (List.length_pos_of_ne_nil hwin)]

/-- Skipping `n` bytes, those in the window now and the rest as they come, is skipping `n` bytes of the stream (R307). -/
theorem drop_window_then_rest (w y : List Byte) (n : Nat) :
    (w.drop (min w.length n) ++ y).drop (n - min w.length n) = (w ++ y).drop n := by
  rcases Nat.le_total w.length n with h | h
  · rw [Nat.min_eq_left h, List.drop_length, List.nil_append, List.drop_append, List.drop_eq_nil_of_le h, List.nil_append]
  · rw [Nat.min_eq_right h, Nat.sub_self, List.drop_zero, List.drop_append_of_le_length h]

/-- Pushing the record at the scan position moves the scan position behind its span. -/
theorem burstRecords_emitRecord {s : State} {y : List Byte} {r : TagRecord} (hskip : s.skip = 0)
    (h : tclass (s.win ++ y) true = .record r) : burstRecords (emitRecord r s) y = burstRecords s y := by
  rw [burstRecords_of_skip hskip, burstRecords, emitRecord_tagq, emitRecord_win, emitRecord_skip, drop_window_then_rest,
    tagDecode_of_record h, List.append_assoc, List.singleton_append]

/-- A TAG_STEP keeps the records of the burst, where ENDING = 1 says that no byte follows. -/
theorem tagStep_burstRecords {s : State} {y : List Byte} (hs : SkipConsistent s) (hend : s.ending = true → y = []) :
    burstRecords (tagStep s) y = burstRecords s y := by
  have hscan : ∀ {c}, tclass s.win s.ending = c → c ≠ .idle → c ≠ .wait →
      s.win ≠ [] ∧ s.skip = 0 ∧ tclass (s.win ++ y) true = c := fun hc hidle hwait =>
    have hwin := ne_nil_of_tclass hc hidle
    ⟨hwin, skip_eq_zero_of_win hs hwin, tclass_whole_buffer hc hidle hwait hend⟩
  rcases tagStep_cases s with ⟨hc, he, e⟩ | ⟨-, -, e⟩ | ⟨-, e⟩ | ⟨hc, e⟩ | ⟨hc, e⟩ | ⟨r, hc, e⟩ <;> rw [e]
  · have hwin := (tclass_eq_idle_iff _ _).mp hc
    simp [burstRecords, hwin, hend he]
  · obtain ⟨hwin, hskip, hwhole⟩ := hscan hc nofun nofun
    exact burstRecords_dropWin ⟨rfl, rfl, rfl⟩ hskip hwin (tagDecode_of_skip1 hwhole)
  · obtain ⟨hwin, hskip, hwhole⟩ := hscan hc nofun nofun
    exact burstRecords_dropWin ⟨rfl, rfl, rfl⟩ hskip hwin (tagDecode_of_underrun hwhole)
  · rcases tagStepRecord_cases r s with ⟨-, er⟩ | ⟨-, er⟩ <;> rw [er]
    obtain ⟨-, hskip, hwhole⟩ := hscan hc nofun nofun
    exact burstRecords_emitRecord hskip hwhole

/-- Only a TAG_STEP at the end of the burst touches ENDING, and none touches TAG_EN. -/
theorem tagStep_intake {s : State} (h : s.win ≠ [] ∨ s.ending = false) :
    tagEn (tagStep s) = tagEn s ∧ (tagStep s).ending = s.ending := by
  rcases tagStep_cases s with ⟨hc, he, -⟩ | ⟨-, -, e⟩ | ⟨-, e⟩ | ⟨-, e⟩ | ⟨-, e⟩ | ⟨r, -, e⟩
  · rcases h with hwin | hend
    · exact absurd ((tclass_eq_idle_iff _ _).mp hc) hwin
    · exact absurd he (ne_true_of_eq_false hend)
  all_goals rw [e]
  · exact ⟨rfl, rfl⟩
  · exact ⟨rfl, rfl⟩
  · exact ⟨rfl, rfl⟩
  · exact ⟨rfl, rfl⟩
  · rcases tagStepRecord_cases r s with ⟨-, er⟩ | ⟨-, er⟩ <;> rw [er] <;> exact ⟨rfl, rfl⟩

/-! ### The running burst: RX_BYTEs and TAG_STEPs -/

/-- A burst is running: TAG_EN is 1, no end of burst runs, and SKIP is 0 while bytes are in the window. -/
structure Running (s : State) : Prop where
  tagEn : tagEn s = true
  ending : s.ending = false
  skip : SkipConsistent s

/-- From `s` to `t` the parser of a running burst took the bytes `q` in and lost nothing. -/
structure Fed (q : List Byte) (s t : State) : Prop where
  running : Running t
  records : ∀ y, burstRecords t y = burstRecords s (q ++ y)

theorem Fed.trans {q r : List Byte} {s t u : State} (hst : Fed q s t) (htu : Fed r t u) : Fed (q ++ r) s u where
  running := htu.running
  records y := by rw [htu.records, hst.records, List.append_assoc]

section
variable {s : State} (h : Running s)
include h

theorem tagStep_fed : Fed [] s (tagStep s) where
  running :=
    have ⟨hen, hend⟩ := tagStep_intake (.inr h.ending)
    ⟨hen.trans h.tagEn, hend.trans h.ending, (updates_tagStep s).skipConsistent h.skip⟩
  records y := tagStep_burstRecords h.skip (by simp [h.ending])

theorem rxIntake_fed (b : Byte) : Fed [] s (rxIntake b s) := by
  rcases rxIntake_cases b s with ⟨-, e⟩ | ⟨-, -, e⟩ | ⟨-, -, e⟩ <;> rw [e] <;>
    exact ⟨⟨h.tagEn, h.ending, h.skip⟩, fun _ => rfl⟩

/-- A byte is a trailer byte, or joins the window; with TAG_OVF it would be lost (R300). -/
theorem tagFeed_fed (b : Byte) (hovf : (tagFeed b s).sticky.getLsbD 14 = false) : Fed [b] s (tagFeed b s) := by
  have hskip := (updates_tagFeed b s).skipConsistent h.skip
  rcases tagFeed_cases b s with ⟨hoff, -⟩ | ⟨-, hk, e⟩ | ⟨-, hk, -, e⟩ | ⟨-, -, -, e⟩
  · simp [h.tagEn] at hoff
  · rw [e] at hskip ⊢
    refine ⟨⟨h.tagEn, h.ending, hskip⟩, fun y => ?_⟩
    obtain ⟨-, hempty⟩ := h.skip
    obtain ⟨k, hk'⟩ := Nat.exists_eq_succ_of_ne_zero hk.ne'
    simp [burstRecords, hempty hk, hk']
  · rw [e] at hskip ⊢
    exact ⟨⟨h.tagEn, h.ending, hskip⟩, fun y => by simp [burstRecords]⟩
  · rw [e] at hovf
    simp [eventBit, eventCode] at hovf

theorem rxByte_fed (b : Byte) (hovf : (rxByte b s).sticky.getLsbD 14 = false) : Fed [b] s (rxByte b s) :=
  (rxIntake_fed h b).trans (tagFeed_fed (rxIntake_fed h b).running b hovf)

end

/-- RX_BYTEs and TAG_STEPs in any order feed a running burst the bytes of the RX_BYTEs, if there is no TAG_OVF at their end. -/
theorem execAll_fed {l : List Instr} (hl : ∀ i ∈ l, (∃ b, i = .rxByte b) ∨ i = .tagStep) (s : State) :
    ∃ t, (∀ rest, execAll (l ++ rest) s = execAll rest t) ∧ Updates s t ∧
      (t.sticky.getLsbD 14 = false → Running s → Fed (receivedBytes l) s t) := by
  induction l generalizing s with
  | nil => exact ⟨s, fun _ => rfl, .refl s, fun _ h => ⟨h, fun _ => rfl⟩⟩
  | cons i l ih =>
    obtain ⟨hi, hrest⟩ := List.forall_mem_cons.mp hl
    rcases hi with ⟨b, rfl⟩ | rfl
    · obtain ⟨t, hrun, hupdates, hfed⟩ := ih hrest (rxByte b s)
      refine ⟨t, hrun, (updates_rxByte b s).trans hupdates, fun hovf h => ?_⟩
      have hbyte := rxByte_fed h b (hupdates.sticky_clear_before hovf)
      exact hbyte.trans (hfed hovf hbyte.running)
    · obtain ⟨t, hrun, hupdates, hfed⟩ := ih hrest (tagStep s)
      refine ⟨t, hrun, (updates_tagStep s).trans hupdates, fun hovf h => ?_⟩
      exact (tagStep_fed h).trans (hfed hovf (tagStep_fed h).running)

/-! ### The end of the burst -/

/-- Where no end of burst runs the window is empty: so it is from TAG_END on, and TAG_STEPs keep it (R309). -/
theorem tagStep_win_of_not_ending {s : State} (h : s.ending = false → s.win = []) :
    (tagStep s).ending = false → (tagStep s).win = [] := by
  intro hend
  rcases eq_or_ne s.win [] with hwin | hwin
  · rcases tagStep_cases s with ⟨-, -, e⟩ | ⟨-, -, e⟩ | ⟨hc, -⟩ | ⟨hc, -⟩ | ⟨hc, -⟩ | ⟨r, hc, -⟩
    · rw [e]
      exact hwin
    · rw [e]
      exact hwin
    all_goals exact absurd hwin (ne_nil_of_tclass hc nofun)
  · obtain ⟨-, hsame⟩ := tagStep_intake (.inl hwin)
    exact absurd (h (hsame.symm.trans hend)) hwin

/-- TAG_STEPs until no end of burst runs leave in TAGQ the records of the bytes the parser held. -/
theorem tagq_of_execAll_tagSteps {n : Nat} {s u : State} (hs : SkipConsistent s) (hwin : s.ending = false → s.win = [])
    (h : execAll (List.replicate n .tagStep) s = .next u) (hu : u.ending = false) : u.tagq = burstRecords s [] := by
  induction n generalizing s with
  | zero =>
    cases h
    simp [burstRecords, hwin hu]
  | succ n ih =>
    rw [ih ((updates_tagStep s).skipConsistent hs) (tagStep_win_of_not_ending hwin) h]
    exact tagStep_burstRecords hs fun _ => rfl

/-- Settles O44: the records of the burst are `decode` of the bytes received before TAG_END, and TAGQ's after the last TAG_STEP. -/
theorem burstEqualsDecode : Obligations.BurstEqualsDecode := by
  intro s t u l n _ hen hwin hskip hend htagq hl hburst hovf hsteps hdone
  have hstart : Running s := ⟨hen, hend, by omega, fun _ => hwin⟩
  obtain ⟨v, hrun, -, hfed⟩ := execAll_fed hl s
  have ht : tagEnd v = t := Host.Outcome.next.inj ((hrun [.tagEnd]).symm.trans hburst)
  have hv := hfed ((updates_tagEnd v).sticky_clear_before (ht ▸ hovf)) hstart
  have hbegin : tagEnd v = beginEnding v := if_neg (ne_true_of_eq_false hv.running.ending)
  rw [← ht, hbegin] at hsteps
  calc u.tagq = burstRecords (beginEnding v) [] := tagq_of_execAll_tagSteps hv.running.skip nofun hsteps hdone
    _ = burstRecords v [] := rfl
    _ = burstRecords s (receivedBytes l) := by rw [hv.records, List.append_nil]
    _ = tagDecode (receivedBytes l) := by rw [burstRecords_of_skip hskip, htagq, hwin, List.nil_append, List.nil_append]

end Sys2Proof.Machine
end

section
/-! The command family (44_commands.md): what a request row sends, what an ack row makes arrive, and the power values that come back exactly. -/

namespace Sys2Proof.Machine

open Sys2Proof.Statements

/-! ### Requests (R351 to R361) -/

/-- No request has more PARAMS bytes than the six of SET_POWER (R351), which the least TXP_DEPTH of 00_scope.md R8 holds. -/
theorem requestTable_params_length (sw : Byte) (x y z : Half) (m : Byte) :
    ∀ c ∈ requestTable sw x y z m, c.2.2.length ≤ 6 := by
  simp [requestTable]

/-- Settles O48: a request is its `send` (R146), and its PARAMS fit into TXBUF. -/
theorem requestsSendTheirFrames : Obligations.RequestsSendTheirFrames := by
  intro s x y z m hvalid hidle c hc
  obtain ⟨⟨hdepth, -⟩, -⟩ := hvalid
  have hroom : c.2.2.length ≤ s.cfg.txpDepth := (requestTable_params_length _ x y z m c hc).trans hdepth
  rw [exec_request s x y z m c hc, hostSend_idle c.2.1 hidle hroom]

/-! ### Acks (R350, R362) -/

/-- Every ack row is its frame's bytes arriving (R362; log 8). -/
theorem exec_ack (s : State) (p : List Byte) :
    ∀ c ∈ ackTable s.cfg.swResetOpcode p, exec c.1 s = .next (rxBytes (frameEncode c.2 p) s) := by
  simp only [ackTable, List.forall_mem_cons]
  exact ⟨rfl, rfl, rfl, rfl, rfl, rfl, rfl, rfl, rfl, rfl, rfl, by simp⟩

/-- With the tag parser's intake closed, a byte for which RXQ has room is appended and does nothing else (42_rx_framer.md R250). -/
theorem rxByte_of_room (b : Byte) {s : State} (hrx : rxfEn s = true) (htag : tagEn s = false) (hroom : s.rxq.length < s.cfg.rxqDepth) :
    rxByte b s = appendRxq b s := by
  have hintake : rxIntake b s = appendRxq b s := by simp [rxIntake, hrx, hroom]
  have hfeed : tagFeed b (appendRxq b s) = appendRxq b s := by simp [tagFeed, show tagEn (appendRxq b s) = false from htag]
  rw [rxByte, hintake, hfeed]

/-- With the tag parser's intake closed, bytes for which RXQ has room are appended in order and do nothing else. -/
theorem rxBytes_of_room {q : List Byte} {s : State} (hrx : rxfEn s = true) (htag : tagEn s = false)
    (hroom : s.rxq.length + q.length ≤ s.cfg.rxqDepth) : rxBytes q s = { s with rxq := s.rxq ++ q } := by
  induction q generalizing s with
  | nil => rw [rxBytes_nil, List.append_nil]
  | cons b q ih =>
    rw [List.length_cons] at hroom
    have hrest : (appendRxq b s).rxq.length + q.length ≤ (appendRxq b s).cfg.rxqDepth := by
      rw [appendRxq_rxq, appendRxq_cfg, List.length_append, List.length_singleton]
      omega
    calc rxBytes (b :: q) s = rxBytes q (appendRxq b s) := by rw [rxBytes_cons, rxByte_of_room b hrx htag (by omega)]
      _ = { s with rxq := s.rxq ++ [b] ++ q } := ih hrx htag hrest
      _ = { s with rxq := s.rxq ++ b :: q } := by rw [List.append_assoc, List.singleton_append]

/-- Settles O50: the frame's bytes arrive, each finding room in RXQ and the tag parser closed. -/
theorem acksEnterTheReceiveQueue : Obligations.AcksEnterTheReceiveQueue := by
  intro s p hrx htag hroom c hc
  have hframe : s.rxq.length + (frameEncode c.2 p).length ≤ s.cfg.rxqDepth := by
    rw [frameEncode_length, frameOverhead]
    omega
  rw [exec_ack s p c hc, rxBytes_of_room hrx htag hframe]

/-- Settles O51: an ack and the run of RX_BYTEs are the same bytes arriving. -/
theorem acksAreTheirBytesArriving : Obligations.AcksAreTheirBytesArriving := by
  intro s p c hc
  rw [exec_ack s p c hc, execAll_rxBytes]

/-! ### Power values (R364 to R366) -/

/-- A power field holds every number of hundredths a signed 16-bit field can. -/
theorem rawToHundredths_dbmToRaw {h : Int} (hmin : -32768 ≤ h) (hmax : h < 32768) : rawToHundredths (dbmToRaw h) = h :=
  BitVec.toInt_ofInt_eq_self (by decide) hmin hmax

/-- A power that is not negative reads the same unsigned. -/
theorem dbmToRaw_toNat {h : Int} (hmin : 0 ≤ h) (hmax : h < 65536) : ((dbmToRaw h).toNat : Int) = h := by
  rw [dbmToRaw, BitVec.toNat_ofInt]
  omega

/-- Two wire bytes mean the hundredths of the field they make up. -/
theorem rawToDbm_hi8_lo8 (v : Half) : rawToDbm (hi8 v) (lo8 v) = (rawToHundredths v : ℚ) / 100 := by
  rw [rawToDbm, be16_hi8_lo8, rawToHundredths]

/-- Settles O52: the validated range lies within the signed field, and is not negative. -/
theorem powerValuesRoundTrip : Obligations.PowerValuesRoundTrip := by
  intro h hmin hmax
  have hback : rawToHundredths (dbmToRaw h) = h := rawToHundredths_dbmToRaw (by omega) (by omega)
  exact ⟨hback, dbmToRaw_toNat (by omega) (by omega), by rw [rawToDbm_hi8_lo8, hback]⟩

end Sys2Proof.Machine
end

section
/-! The exceptions family (60_exceptions.md): every instruction completes (R400), and only the host's pops, flushes and a reset take a
record or the delivered frame away (R410). -/

namespace Sys2Proof.Machine

open Sys2Proof.Statements

/-- Settles O4: the state an instruction answers is the one its effect is about. -/
theorem everyInstructionAnswersANextState : Obligations.EveryInstructionAnswersANextState := by
  intro i s
  obtain ⟨t, ht, -⟩ := exec_next_effect i s
  exact ⟨t, ht⟩

/-! ### Changes that keep the results -/

/-- From `s` to `t` no record leaves TAGQ, and a delivered frame stays in the slot, RX_RIDX apart (60_exceptions.md R410). -/
structure KeepsResults (s t : State) : Prop where
  records : s.tagq <+: t.tagq
  frame : s.slot.valid = true → t.slot = { s.slot with ridx := t.slot.ridx }

section
variable {s t u : State}

theorem slot_eq_apart_ridx (h : t.slot = s.slot) : t.slot = { s.slot with ridx := t.slot.ridx } := by rw [h]

theorem KeepsResults.of_eq (h : t.tagq = s.tagq ∧ t.slot = s.slot) : KeepsResults s t := by
  obtain ⟨htagq, hslot⟩ := h
  exact ⟨by rw [htagq], fun _ => slot_eq_apart_ridx hslot⟩

theorem KeepsResults.refl (s : State) : KeepsResults s s := .of_eq ⟨rfl, rfl⟩

theorem KeepsResults.trans (hst : KeepsResults s t) (htu : KeepsResults t u) : KeepsResults s u where
  records := hst.records.trans htu.records
  frame hvalid := by
    have ht := hst.frame hvalid
    have hu := htu.frame (by rw [ht]; exact hvalid)
    rw [ht] at hu
    exact hu

theorem sameRx_results (h : SameRx s t) : t.tagq = s.tagq ∧ t.slot = s.slot := by
  obtain ⟨-, -, hslot, -, -, -, htagq, -⟩ := h
  exact ⟨htagq.symm, hslot.symm⟩

end

/-! ### The shared operations -/

section
variable (s : State)

theorem tagEnd_results : (tagEnd s).tagq = s.tagq ∧ (tagEnd s).slot = s.slot := by
  rcases tagEnd_cases s with ⟨-, e⟩ | ⟨-, e⟩ <;> rw [e] <;> exact ⟨rfl, rfl⟩

theorem txClr_results : (txClr s).tagq = s.tagq ∧ (txClr s).slot = s.slot := sameRx_results (txClr_sameRx s)

theorem txSend_results : (txSend s).tagq = s.tagq ∧ (txSend s).slot = s.slot := sameRx_results (txSend_sameRx s)

theorem rxPop_tagq : (rxPop s).tagq = s.tagq := by
  rcases rxPop_cases s with ⟨-, e⟩ | ⟨-, e⟩ <;> rw [e]
  exact emptySlot_tagq s

theorem rxFlush_tagq : (rxFlush s).tagq = s.tagq := rxPop_tagq (clearRxq s)

theorem tagPop_slot : (tagPop s).slot = s.slot := dropRecord_slot s

theorem keepsResults_ctrlWrite (v : Word) : KeepsResults s (ctrlWrite v s) := by
  rcases ctrlWrite_cases v s with ⟨-, -, e⟩ | ⟨-, e⟩ <;> rw [e] <;> exact .of_eq ⟨rfl, rfl⟩

/-- A read of RX_DATA moves RX_RIDX on and nothing else of the slot (42_rx_framer.md R261). -/
theorem keepsResults_rxDataRead : KeepsResults s (rxDataRead s) := by
  rcases rxDataRead_cases s with ⟨-, -, e⟩ | ⟨-, e⟩ <;> rw [e]
  · exact ⟨⟨[], List.append_nil _⟩, fun _ => rfl⟩
  · exact .of_eq ⟨rfl, rfl⟩

theorem keepsResults_pushParams (p : List Byte) : KeepsResults s (pushParams p s) :=
  pushParams_induct (KeepsResults s) (fun _ t h => h.trans (.of_eq (sameRx_results (txDataWrite_sameRx t _)))) p s (.refl s)

theorem keepsResults_hostSend (op : Byte) (p : List Byte) : KeepsResults s (hostSend op p s) := by
  rcases hostSend_cases op p s with ⟨-, e⟩ | ⟨-, e⟩ <;> rw [e]
  · exact .of_eq ⟨rfl, rfl⟩
  · have hpolled : KeepsResults s (busReturn (statusValue s) s) := .of_eq ⟨rfl, rfl⟩
    have hcleared := hpolled.trans (.of_eq (txClr_results _))
    have hopcode := hcleared.trans (.of_eq (sameRx_results (txOpcodeWrite_sameRx _ (op.setWidth 32))))
    exact (hopcode.trans (keepsResults_pushParams _ p)).trans (.of_eq (txSend_results _))

theorem keepsResults_tagFeed (b : Byte) : KeepsResults s (tagFeed b s) := by
  rcases tagFeed_cases b s with ⟨-, e⟩ | ⟨-, -, e⟩ | ⟨-, -, -, e⟩ | ⟨-, -, -, e⟩ <;> rw [e] <;> exact .of_eq ⟨rfl, rfl⟩

theorem keepsResults_rxByte (b : Byte) : KeepsResults s (rxByte b s) := by
  refine KeepsResults.trans ?_ (keepsResults_tagFeed (rxIntake b s) b)
  rcases rxIntake_cases b s with ⟨-, e⟩ | ⟨-, -, e⟩ | ⟨-, -, e⟩ <;> rw [e] <;> exact .of_eq ⟨rfl, rfl⟩

theorem keepsResults_rxResponse (op : Byte) (p : List Byte) : KeepsResults s (rxResponse op p s) :=
  rxBytes_induct (KeepsResults s) (fun b t h => h.trans (keepsResults_rxByte t b)) _ s (.refl s)

theorem raiseChecks_results (k o : Bool) : (raiseChecks k o s).tagq = s.tagq ∧ (raiseChecks k o s).slot = s.slot := by
  rw [raiseChecks_eq]
  exact ⟨rfl, rfl⟩

/-- The delineator delivers into an empty slot only (42_rx_framer.md R253), so it replaces no delivered frame. -/
theorem keepsResults_delinStep : KeepsResults s (delinStep s) := by
  rcases delinStep_cases s with ⟨-, e⟩ | ⟨-, hfree, ⟨-, e⟩ | ⟨-, e⟩ | ⟨k, o, -, e⟩ | ⟨f, c, k, o, -, e⟩⟩ <;> rw [e]
  · exact .refl s
  · exact .of_eq ⟨rfl, rfl⟩
  · exact .of_eq ⟨rfl, rfl⟩
  · exact .of_eq (raiseChecks_results s k o)
  · obtain ⟨htagq, -⟩ := raiseChecks_results s k o
    exact ⟨by rw [deliver_tagq, htagq], fun hvalid => absurd hvalid (ne_true_of_eq_false hfree)⟩

/-- A record found is pushed at the tail of TAGQ (43_tag_parser.md R305). -/
theorem keepsResults_tagStepRecord (r : TagRecord) : KeepsResults s (tagStepRecord r s) := by
  rcases tagStepRecord_cases r s with ⟨-, e⟩ | ⟨-, e⟩ <;> rw [e]
  · exact ⟨⟨[r], rfl⟩, fun _ => rfl⟩
  · exact .refl s

theorem keepsResults_tagStep : KeepsResults s (tagStep s) := by
  rcases tagStep_cases s with ⟨-, -, e⟩ | ⟨-, -, e⟩ | ⟨-, e⟩ | ⟨-, e⟩ | ⟨-, e⟩ | ⟨r, -, e⟩ <;> rw [e]
  · exact .of_eq ⟨rfl, rfl⟩
  · exact .refl s
  · exact .refl s
  · exact .of_eq ⟨rfl, rfl⟩
  · exact .of_eq ⟨rfl, rfl⟩
  · exact keepsResults_tagStepRecord s r

theorem keepsResults_tagRecordStep (r : TagRecord) : KeepsResults s (tagRecordStep r s) := by
  rcases tagRecordStep_cases r s with ⟨-, e⟩ | ⟨-, e⟩ <;> rw [e]
  · exact keepsResults_tagStepRecord s r
  · exact .refl s

end

/-! ### Every instruction but the host's discarding commands and the resets -/

/-- The host's pops and flushes, the CMD word, which may hold them, and the resets. -/
inductive MayDiscard : Instr → Prop where
  | rxPop : MayDiscard .rxPop
  | rxFlush : MayDiscard .rxFlush
  | tagPop : MayDiscard .tagPop
  | tagFlush : MayDiscard .tagFlush
  | cmdWrite (v : Word) : MayDiscard (.cmdWrite v)
  | blkReset : MayDiscard .blkReset
  | hardReset : MayDiscard .hardReset

theorem exec_next_keepsResults (i : Instr) (s : State) (hi : ¬MayDiscard i) : ∃ t, exec i s = .next t ∧ KeepsResults s t := by
  cases i with
  | rxPop => exact absurd .rxPop hi
  | rxFlush => exact absurd .rxFlush hi
  | tagPop => exact absurd .tagPop hi
  | tagFlush => exact absurd .tagFlush hi
  | cmdWrite v => exact absurd (.cmdWrite v) hi
  | blkReset => exact absurd .blkReset hi
  | hardReset => exact absurd .hardReset hi
  | setPower _ _ _ | getPower | setAntenna _ _ | getAntenna | setRfMode _ _ | getRfMode _ | setDwell _ _ _ | getDwell
  | inventoryStart _ | inventoryStop | softwareReset => exact ⟨_, rfl, keepsResults_hostSend s _ _⟩
  | setPowerAck _ | getPowerAck _ | setAntennaAck _ | getAntennaAck _ | setRfModeAck _ | getRfModeAck _ | setDwellAck _
  | getDwellAck _ | inventoryStartAck _ | inventoryStopAck _ | softwareResetAck _ => exact ⟨_, rfl, keepsResults_rxResponse s _ _⟩
  | txSend => exact ⟨_, rfl, .of_eq (txSend_results s)⟩
  | txClr => exact ⟨_, rfl, .of_eq (txClr_results s)⟩
  | txOpcodeWrite v => exact ⟨_, rfl, .of_eq (sameRx_results (txOpcodeWrite_sameRx s v))⟩
  | txDataWrite v => exact ⟨_, rfl, .of_eq (sameRx_results (txDataWrite_sameRx s v))⟩
  | txAccept => exact ⟨_, rfl, .of_eq (sameRx_results (txAccept_sameRx s))⟩
  | tagEnd => exact ⟨_, rfl, .of_eq (tagEnd_results s)⟩
  | ctrlWrite v => exact ⟨_, rfl, keepsResults_ctrlWrite s v⟩
  | cntClr | statusW1c _ | ieWrite _ | expOpcodeWrite _ | roOrUnmappedWrite _ _
  | ctrlRead | statusRead | ieRead | txOpcodeRead | txPlenRead | expOpcodeRead | rxHdrRead | rxInfoRead | rxRidxRead
  | tagHdrRead | tagRssiRead | levelsRead | cntRxdropRead | cntFramesRead | cntTagsRead | cfg0Read | cfg1Read
  | tagEpcRead _ | unmappedOrWoRead _ | rxLineError => exact ⟨_, rfl, .of_eq ⟨rfl, rfl⟩⟩
  | rxDataRead => exact ⟨_, rfl, keepsResults_rxDataRead s⟩
  | rxByte b => exact ⟨_, rfl, keepsResults_rxByte s b⟩
  | tagFeed b => exact ⟨_, rfl, keepsResults_tagFeed s b⟩
  | delinStep => exact ⟨_, rfl, keepsResults_delinStep s⟩
  | tagStep => exact ⟨_, rfl, keepsResults_tagStep s⟩
  | tagRecord _ _ _ _ => exact ⟨_, rfl, keepsResults_tagRecordStep s _⟩

theorem exec_keepsResults {i : Instr} {s t : State} (h : exec i s = .next t) (hi : ¬MayDiscard i) : KeepsResults s t := by
  obtain ⟨u, hu, hkeeps⟩ := exec_next_keepsResults i s hi
  cases hu.symm.trans h
  exact hkeeps

/-! ### A CMD write (40_host_access.md R189) -/

section
variable {v : Word} (hblk : v.getLsbD 31 = false)
include hblk

/-- Without TAG_POP and TAG_FLUSH no command of a CMD word touches TAGQ. -/
theorem cmdWrite_tagq (hpop : v.getLsbD 4 = false) (hflush : v.getLsbD 6 = false) (s : State) : (cmdWrite v s).tagq = s.tagq := by
  simp only [cmdWrite_of_commands hblk, whenBit_of_clear hpop, whenBit_of_clear hflush, whenBit_apply State.tagq, cntClr_tagq,
    txSend_results, txClr_results, tagEnd_results, rxPop_tagq, rxFlush_tagq, ite_self]

/-- Without RX_POP and RX_FLUSH no command of a CMD word touches the slot. -/
theorem cmdWrite_slot (hpop : v.getLsbD 2 = false) (hflush : v.getLsbD 3 = false) (s : State) : (cmdWrite v s).slot = s.slot := by
  simp only [cmdWrite_of_commands hblk, whenBit_of_clear hpop, whenBit_of_clear hflush, whenBit_apply State.slot, cntClr_slot,
    txSend_results, txClr_results, tagEnd_results, tagPop_slot, tagFlush_slot, ite_self]

end

/-- Settles O46: the pops and flushes of one side leave the other side alone, as do a CMD word's; every other instruction but a reset
keeps both. -/
theorem onlyHostCommandsDiscardResults : Obligations.OnlyHostCommandsDiscardResults := by
  rintro i s t ⟨hHard, hBlk, hCmd⟩ h
  by_cases hi : MayDiscard i
  · cases hi with
    | rxPop =>
      cases h
      exact ⟨fun _ _ _ => by rw [rxPop_tagq], fun hne => absurd rfl hne⟩
    | rxFlush =>
      cases h
      exact ⟨fun _ _ _ => by rw [rxFlush_tagq], fun _ hne => absurd rfl hne⟩
    | tagPop =>
      cases h
      exact ⟨fun hne => absurd rfl hne, fun _ _ _ _ => slot_eq_apart_ridx (tagPop_slot s)⟩
    | tagFlush =>
      cases h
      exact ⟨fun _ hne => absurd rfl hne, fun _ _ _ _ => slot_eq_apart_ridx (tagFlush_slot s)⟩
    | cmdWrite v =>
      cases h
      have hblk := hCmd v rfl
      refine ⟨fun _ _ hbits => ?_, fun _ _ hbits _ => ?_⟩ <;> obtain ⟨hb, hb'⟩ := hbits v rfl
      · rw [cmdWrite_tagq hblk hb hb']
      · exact slot_eq_apart_ridx (cmdWrite_slot hblk hb hb' s)
    | blkReset => exact absurd rfl hBlk
    | hardReset => exact absurd rfl hHard
  · obtain ⟨hrecords, hframe⟩ := exec_keepsResults h hi
    exact ⟨fun _ _ _ => hrecords, fun _ _ _ => hframe⟩

end Sys2Proof.Machine
end

section
/-! The reset family (70_reset_and_hazards.md): the idle state HardReset leaves (R440), where no engine has a step and both receive paths
are closed (R445). -/

namespace Sys2Proof.Machine

/-! ### Closed receive paths (R445) -/

theorem rxByte_of_closed (b : Byte) {s : State} (hrx : rxfEn s = false) (htag : tagEn s = false) : rxByte b s = s := by
  have hintake : rxIntake b s = s := by simp [rxIntake, hrx]
  have hfeed : tagFeed b s = s := by simp [tagFeed, htag]
  rw [rxByte, hintake, hfeed]

/-! ### The state HardReset leaves (R440) -/

section
variable (s : State)

theorem rxfEn_hardReset : rxfEn (hardReset s) = false := by
  rw [rxfEn, hardReset_ctrl]
  decide

theorem tagEn_hardReset : tagEn (hardReset s) = false := by
  rw [tagEn, hardReset_ctrl]
  decide

theorem delinEnabled_hardReset : delinEnabled (hardReset s) = false := by
  simp [delinEnabled, rxfEn_hardReset]

theorem tagEnabled_hardReset : tagEnabled (hardReset s) = false := by
  have hidle : tclass (hardReset s).win (hardReset s).ending = .idle := (tclass_eq_idle_iff _ _).mpr (hardReset_win s)
  rw [tagEnabled, hidle, hardReset_ending]

end

/-- Settles O7: RXF_EN = 0, W = [] with ENDING = 0, and TX_BUSY = 0 leave the three engines without a step; RXF_EN = 0 and TAG_EN = 0
discard the byte. -/
theorem nothingMovesAfterHardReset : Obligations.NothingMovesAfterHardReset := by
  intro s
  have hdelin := (delinStep_eq_self_iff (hardReset s)).mpr (delinEnabled_hardReset s)
  have htag := (tagStep_eq_self_iff (hardReset s)).mpr (tagEnabled_hardReset s)
  have htx := (txAccept_eq_self_iff (hardReset s)).mpr (hardReset_txBusy s)
  have hbyte (b : Byte) := rxByte_of_closed b (rxfEn_hardReset s) (tagEn_hardReset s)
  exact ⟨hardReset s, rfl, congrArg Host.Outcome.next hdelin, congrArg Host.Outcome.next htag, congrArg Host.Outcome.next htx,
    fun b => congrArg Host.Outcome.next (hbyte b)⟩

end Sys2Proof.Machine
end
